-- ==== Sys2Proof/Word.lean ====
section
/-! DEFINITION. The word types of the block: 64-bit datapath words, 32-bit halves, 72-bit command words,
68-bit response words, 8-bit opcodes (rules R6, R8, R60, R66). Arithmetic on them is `BitVec` arithmetic, which is
the arithmetic modulo 2^64 of rule R9. -/

namespace Sys2Proof

/-- A 64-bit word: every register and datapath value (rules R6 `W`, R8). -/
abbrev Word := BitVec 64

/-- A 32-bit value: the result of `high32`, `low32` and `MIX32` (rules R9, R101). -/
abbrev Half := BitVec 32

/-- An 8-bit opcode (rule R60). -/
abbrev Opcode := BitVec 8

/-- A 72-bit command word (rules R41, R60). -/
abbrev CommandWord := BitVec 72

/-- A 68-bit response word (rules R41, R66). -/
abbrev ResponseWord := BitVec 68

end Sys2Proof
end

