-- ==== Sys2Proof/Syntax.lean ====
section
/-! DEFINITION. The commands of the block, one constructor per row of spec/opcode_table.json (rule R63). Each carries
its whole 64-bit `arg` field; where the command ignores it (rule R62) the field is still kept, so that no bit of a
command word is lost and "ignored" is something a statement can say. -/

namespace Sys2Proof

inductive Instr where
  /-- `NOP`, op 0x00, rule R130; `arg` ignored. -/
  | nop (arg : Word)
  /-- `STATUS`, op 0x01, rule R131; `arg` ignored. -/
  | status (arg : Word)
  /-- `SETSEED s`, op 0x10, rule R86; `arg` is the raw seed. -/
  | setseed (arg : Word)
  /-- `GETSEED`, op 0x11, rule R132; `arg` ignored. -/
  | getseed (arg : Word)
  /-- `GETISEED`, op 0x12, rule R133; `arg` ignored. -/
  | getiseed (arg : Word)
  /-- `SETCTR c`, op 0x13, rule R134; `arg` is the new counter value. -/
  | setctr (arg : Word)
  /-- `GETCTR`, op 0x14, rule R135; `arg` ignored. -/
  | getctr (arg : Word)
  /-- `RESET`, op 0x15, rule R136; `arg` ignored. -/
  | reset (arg : Word)
  /-- `NEXTINT`, op 0x20, rule R120; `arg` ignored. -/
  | nextint (arg : Word)
  /-- `NEXTLONG`, op 0x21, rule R121; `arg` ignored. -/
  | nextlong (arg : Word)
  /-- `GETINT p`, op 0x22, rule R122; `arg` is the probe position. -/
  | getint (arg : Word)
  /-- `GETLONG p`, op 0x23, rule R123; `arg` is the probe position. -/
  | getlong (arg : Word)
  /-- `CPUT v`, op 0x30, rule R146; `arg` is the payload. -/
  | cput (arg : Word)
  /-- `CTAKE`, op 0x31, rule R147; `arg` ignored. -/
  | ctake (arg : Word)
  /-- `CPEEK`, op 0x32, rule R148; `arg` ignored. -/
  | cpeek (arg : Word)
  deriving DecidableEq, Repr

end Sys2Proof
end

