-- ==== Sys2Proof/Decode.lean ====
section
/-! DEFINITION. The decoder and the encoder of command words (rules R60 to R64), total on all 2^72 words. A reserved
opcode is refused by name here; what the block then answers (`ILLEGAL`) is in Machine/Execute.lean. -/

namespace Sys2Proof

/-- Why a command word is no command of the table. -/
inductive DecodeError where
  /-- `op` is one of the 241 reserved values (rule R64). -/
  | reservedOpcode (op : Opcode)
  deriving DecidableEq, Repr

/-- Field `op`, bits 71:64 (rule R60). -/
def opField (w : CommandWord) : Opcode := w.extractLsb' 64 8

/-- Field `arg`, bits 63:0, used whole (rules R60, R62). -/
def argField (w : CommandWord) : Word := w.extractLsb' 0 64

/-- The opcode map (rule R63): one row per opcode, with the command it names. -/
def opcodeMap : List (Opcode × (Word → Instr)) :=
  [(0x00#8, .nop), (0x01#8, .status),
   (0x10#8, .setseed), (0x11#8, .getseed), (0x12#8, .getiseed),
   (0x13#8, .setctr), (0x14#8, .getctr), (0x15#8, .reset)] ++
  [(0x20#8, .nextint), (0x21#8, .nextlong), (0x22#8, .getint), (0x23#8, .getlong),
   (0x30#8, .cput), (0x31#8, .ctake), (0x32#8, .cpeek)]

/-- Decode a command word: a decoder matches on `op` alone (rules R63, R64). -/
def decode (w : CommandWord) : Except DecodeError Instr :=
  match opcodeMap.lookup (opField w) with
  | some command => .ok (command (argField w))
  | none => .error (.reservedOpcode (opField w))

/-- The opcode of a command (rule R63). -/
def Instr.op : Instr → Opcode
  | .nop _ => 0x00#8
  | .status _ => 0x01#8
  | .setseed _ => 0x10#8
  | .getseed _ => 0x11#8
  | .getiseed _ => 0x12#8
  | .setctr _ => 0x13#8
  | .getctr _ => 0x14#8
  | .reset _ => 0x15#8
  | .nextint _ => 0x20#8
  | .nextlong _ => 0x21#8
  | .getint _ => 0x22#8
  | .getlong _ => 0x23#8
  | .cput _ => 0x30#8
  | .ctake _ => 0x31#8
  | .cpeek _ => 0x32#8

/-- The operand field of a command (rule R60). -/
def Instr.arg : Instr → Word
  | .nop a | .status a | .setseed a | .getseed a | .getiseed a | .setctr a | .getctr a | .reset a
  | .nextint a | .nextlong a | .getint a | .getlong a | .cput a | .ctake a | .cpeek a => a

/-- The column "Needs seed" of the opcode map (rules R63, R69). -/
def Instr.needsSeed : Instr → Bool
  | .nop _ | .status _ | .setseed _ => false
  | .getseed _ | .getiseed _ | .setctr _ | .getctr _ | .reset _ | .nextint _ | .nextlong _ | .getint _ | .getlong _
  | .cput _ | .ctake _ | .cpeek _ => true

/-- The command uses its `arg` (rule R62). -/
def Instr.takesOperand : Instr → Bool
  | .setseed _ | .setctr _ | .getint _ | .getlong _ | .cput _ => true
  | .nop _ | .status _ | .getseed _ | .getiseed _ | .getctr _ | .reset _ | .nextint _ | .nextlong _
  | .ctake _ | .cpeek _ => false

/-- The 72-bit word of a command, `op` at bits 71:64 and `arg` below it (rule R60). -/
def encode (i : Instr) : CommandWord := i.op ++ i.arg

/-- The command word that `nbits` bits with value `w` give: the bits above `nbits` are zero. The table's rows have 72
bits, one word, so its numbering is the word's own (rules R8, R60). -/
def tableWord (nbits w : Nat) : CommandWord := BitVec.ofNat 72 (w % 2 ^ nbits)

/-- What the decoder reads from an instruction numbered as spec/opcode_table.json numbers its bits. -/
def decodeTableWord (nbits w : Nat) : Option Instr :=
  match decode (tableWord nbits w) with
  | .ok i => some i
  | .error _ => none

end Sys2Proof
end

