-- ==== Sys2Proof/Config.lean ====
section
/-! DEFINITION. The implementation parameters of rule R6, the fixed constants of rule R7, and the values the spec
leaves open: `K_COND` and `CTR_INIT` (decisions D3, D4), the unspecified content of an emptied `CACHE` (rule R24, U6)
and the host-layer functions KR does not give (U15). Every open value is an opaque constant: no proof can see it. -/

namespace Sys2Proof

/-- The parameter record of one instance (rule R6). No command changes it (rule R222). -/
structure Params where
  /-- `K_COND`, the conditioning constant: open in the spec (decision D3). -/
  kCond : Word
  /-- `CTR_INIT`, the counter sentinel of `SETSEED` and `RESET`: open in the spec (decision D4, rule R27). -/
  ctrInit : Word
  /-- `HAS_CACHE`: the cached-sample register is present (decision D5). -/
  hasCache : Bool
  deriving DecidableEq, Repr

namespace Config

/-- `K_COND` of the instance that `State.reset` describes: open, so without a body (decision D3, log entry 2). -/
opaque kCond : Word

/-- `CTR_INIT` of the instance that `State.reset` describes: open, so without a body (decision D4, log entry 2). -/
opaque ctrInit : Word

/-- `HAS_CACHE` of the instance that `State.reset` describes: KR's generator has the register (decision D5).
DESIGN CHOICE, log entry 3. -/
def hasCache : Bool := true

/-- The parameters of the instance that `State.reset` describes. -/
def params : Params := { kCond := kCond, ctrInit := ctrInit, hasCache := hasCache }

/-- The n-th unspecified word: what `CACHE` holds after a command that leaves its content unspecified
(rules R86, R136, R147). A free value, log entry 5. -/
opaque unspecified : Nat → Word

/-- The Box–Muller pair (binary64 bit patterns of the first and the second sample) of two draws `u1 * 2^-52` and
`u2 * 2^-52`. KR does not give its formulas (91_not_in_source.md N10). A free value of the host layer, log entry 10. -/
opaque boxMuller : BitVec 52 → BitVec 52 → Word × Word

/-- The `hashCode` analog: some function of the four compared values (rule R171, 91_not_in_source.md N13).
A free value of the host layer, log entry 10. -/
opaque hashCode : Word → Word → Word → Option Word → Nat

/-- `COND_THRESHOLD` (rules R6, R82). -/
def condThreshold : Nat := 2

/-- `COND_ROT` (rules R6, R83). -/
def condRot : Nat := 15

/-- `COND_MAX_ROT` (rules R6, R83). -/
def condMaxRot : Nat := 63

/-- `COND_TARGET` (rules R6, R82). -/
def condTarget : Nat := 32

/-- The command-set version of the status word (rules R1, R29). -/
def version : BitVec 8 := 0x01#8

end Config

end Sys2Proof
end

