-- ==== Sys2Proof/Machine/State.lean ====
section
/-! DEFINITION. The state of one block instance: the record of rule R20, the parameters of rule R6, the command in
flight and the pending response of rules R34 and R42, and the host's side of the ports (rule R41) as plain data.
What each field is after hardware reset is rule R34. -/

namespace Sys2Proof.Machine

/-- The four completion codes (rule R200). Values 0x4 to 0xF do not exist (U9). -/
inductive Code where
  /-- 0x0: the command executed. -/
  | ok
  /-- 0x1: `op` is reserved (rules R64, R65). -/
  | illegal
  /-- 0x2: the command needs a seed and `SEEDED = 0` (rule R69). -/
  | unseeded
  /-- 0x3: no sample is cached (rules R147, R148). -/
  | empty
  deriving DecidableEq, Repr

/-- A response: completion code and data (rule R66). -/
structure Response where
  code : Code
  data : Word
  deriving DecidableEq, Repr

/-- The input pins at one rising edge of `clk` (rule R41). -/
structure Pins where
  /-- `rst`, synchronous, active high. -/
  rst : Bool
  /-- `cmd_valid`. -/
  cmdValid : Bool
  /-- `cmd_word`. -/
  cmdWord : CommandWord
  /-- `rsp_ready`. -/
  rspReady : Bool
  deriving DecidableEq, Repr

/-- A command accepted and not yet completed (rules R34, R42), with the number of clock edges the implementation still
takes before the one that completes it (rule R228). -/
structure Flight where
  word : CommandWord
  left : Nat
  deriving DecidableEq, Repr

/-- The state of the block, and the outside world's part of its interface as plain data. -/
structure State where
  /-- The instance's parameters (rule R6): fixed, written by no step (rule R222; log entry 1). -/
  params : Params
  /-- `PSEED`, the public seed (rule R21). -/
  pseed : Word
  /-- `ISEED`, the internal seed (rule R22). -/
  iseed : Word
  /-- `CTR`, the counter (rule R23). -/
  ctr : Word
  /-- `CACHE`, the payload of the cached sample (rule R24). -/
  cache : Word
  /-- `CVALID`, its presence tag (rule R24). -/
  cvalid : Bool
  /-- `SEEDED`: `SETSEED` has executed since hardware reset (rule R25). -/
  seeded : Bool
  /-- The command in flight (rules R34, R42). -/
  flight : Option Flight
  /-- The response the block presents until it is delivered (rules R34, R42). -/
  rsp : Option Response
  /-- The input pins at the coming clock edges, the next one first (rule R41; log entry 6). The model's own field. -/
  pins : List Pins
  /-- How many edges the implementation takes for each command still to be accepted, the next one first
  (rule R228, U11; log entry 7). The model's own field: nothing constrains it. -/
  latencies : List Nat
  /-- How many unspecified words have been drawn from `Config.unspecified` (log entry 5). The model's own field. -/
  draws : Nat
  deriving DecidableEq, Repr

/-- Why the machine stops with a fault: never. No command in any state stops the block or leaves it without a next
state (rule R213, 93_implementation_defined.md section 1), so the type has no constructor. -/
inductive Fault
  deriving DecidableEq, Repr

/-- Why the model gives no next state. -/
inductive Refusal where
  /-- An arm of `exec` without a meaning. No arm raises it: every command of the table is modelled. It would be safe:
  the model stops where the block goes on. -/
  | notModelled (mnemonic : String)
  deriving DecidableEq, Repr

/-- What a command or a step answers. -/
abbrev Answer := Host.Outcome State Fault Refusal

/-- The state after hardware reset of an instance with parameters `p` (rules R34, R220). `PSEED`, `ISEED`, `CTR` and
`CACHE` are unspecified there and unobservable; the model names zero (DESIGN CHOICE, log entry 4). -/
def State.resetOf (p : Params) : State where
  params := p
  pseed := 0#64
  iseed := 0#64
  ctr := 0#64
  cache := 0#64
  cvalid := false
  seeded := false
  flight := none
  rsp := none
  pins := []
  latencies := []
  draws := 0

/-- The machine right after hardware reset, `K_COND` and `CTR_INIT` open (log entries 2, 3). -/
def State.reset : State := State.resetOf Config.params

end Sys2Proof.Machine
end

