-- ==== Sys2Proof/Machine/Operands.lean ====
section
/-! DEFINITION. The arithmetic and bit-field primitives of rule R9 that `BitVec` does not already give by name, and the
forms in which operands and results cross the ports (rules R62, R66, R67). -/

namespace Sys2Proof.Machine

/-- `high32(a) = a[63:32]` (rule R9). -/
def high32 (a : Word) : Half := a.extractLsb' 32 32

/-- `low32(a) = a[31:0]` (rule R9). -/
def low32 (a : Word) : Half := a.extractLsb' 0 32

/-- `zext_64` of a 32-bit value (rules R9, R67). -/
def zext64 (v : Half) : Word := v.setWidth 64

/-- How `MIX64` widens its `high32` before the XOR: zero extension, the spec's decision D6 (rule R103, U3). The one
place to change if the reference turns out to sign-extend. -/
def widenHigh (v : Half) : Word := zext64 v

/-- How many of the low `n` bits of `a` are 1. -/
def onesBelow (a : Word) : Nat → Nat
  | 0 => 0
  | n + 1 => onesBelow a n + (a.getLsbD n).toNat

/-- `popcount(a)`, an integer from 0 to 64 (rule R9). -/
def popcount (a : Word) : Nat := onesBelow a 64

/-- `rotr(a, n)` (rule R9). -/
def rotr (a : Word) (n : Nat) : Word := a.rotateRight n

/-- `a` with bit 0 set to `b` (the `p[0] = target` of rule R83). -/
def withBit0 (a : Word) (b : Bool) : Word :=
  if b then a ||| 1#64 else a &&& ~~~1#64

/-- The four bits of a completion code (rules R66, R200). -/
def Code.bits : Code → BitVec 4
  | .ok => 0x0#4
  | .illegal => 0x1#4
  | .unseeded => 0x2#4
  | .empty => 0x3#4

/-- The 68-bit response word, code at bits 67:64 and data below it (rule R66). -/
def Response.word (r : Response) : ResponseWord := r.code.bits ++ r.data

end Sys2Proof.Machine
end

