-- ==== Sys2Proof/Machine/Flags.lean ====
section
/-! DEFINITION. The two flags of the block, `SEEDED` and `CVALID` (rules R24 to R26), the updates that set and clear
`CVALID`, and the status word that shows them (rule R29). No arithmetic writes a flag (rule R26). -/

namespace Sys2Proof.Machine

/-- Set `CVALID` and deposit a payload (rule R146). -/
def State.putCache (s : State) (v : Word) : State :=
  { s with cache := v, cvalid := true }

/-- Clear `CVALID`; the content of `CACHE` becomes unspecified (rules R86, R136, R147): a fresh free value, log entry 5.
Without the register there is no content to lose (rule R149). -/
def State.emptyCache (s : State) : State :=
  if s.params.hasCache then
    { s with cache := Config.unspecified s.draws, cvalid := false, draws := s.draws + 1 }
  else
    { s with cvalid := false }

/-- The status word (rule R29): bit 0 `SEEDED`, bit 1 `CVALID` (0 without the register), bit 2 `HAS_CACHE`, bits 15:8
`VERSION`, every other bit 0. -/
def State.statusWord (s : State) : Word :=
  0#48 ++ Config.version ++ 0#5 ++ BitVec.ofBool s.params.hasCache
    ++ BitVec.ofBool (s.cvalid && s.params.hasCache) ++ BitVec.ofBool s.seeded

end Sys2Proof.Machine
end

