-- ==== Sys2Proof/Machine/Ops.lean ====
section
/-! DEFINITION. The operations that the commands share: completing with a code and data (rules R10, R66), the tests
that precede every command's own rule (rule R69), and the counter's writes (rule R125). The block takes no traps
(rule R203): a condition that a processor would trap on is a completion code here, so `State.answer` with a code other
than `OK` stands where taking an exception would, and there is nothing to return from (rule R206). The block has no
memory (rule R40), so there are no memory operations. -/

namespace Sys2Proof.Machine

/-- The command in flight is done and its response is on the response port (rules R10, R42, R66). -/
def State.answer (s : State) (code : Code) (data : Word) : State :=
  { s with flight := none, rsp := some { code := code, data := data } }

/-- `complete(code, data)` (rule R10). -/
def complete (code : Code) (data : Word) (s : State) : Answer :=
  .next (s.answer code data)

/-- The first test of rule R69 as it meets the cache commands: without the register their opcodes are reserved
(rules R65, R149). -/
def whenCached (s : State) (run : Answer) : Answer :=
  if s.params.hasCache then run else complete .illegal 0#64 s

/-- The second test of rule R69: a command that needs a seed completes with `UNSEEDED` and data 0 while `SEEDED = 0`. -/
def whenSeeded (s : State) (run : Answer) : Answer :=
  if s.seeded then run else complete .unseeded 0#64 s

/-- `CTR <- c` (rules R23, R134). -/
def State.setCtr (s : State) (c : Word) : State :=
  { s with ctr := c }

/-- `CTR <- CTR + 1` modulo 2^64 (rule R125). -/
def State.advanceCtr (s : State) : State :=
  s.setCtr (s.ctr + 1#64)

end Sys2Proof.Machine
end

