-- ==== Sys2Proof/Machine/Access.lean ====
section
/-! DEFINITION. The housekeeping and state-access commands (43_state_commands.md). -/

namespace Sys2Proof.Machine

/-- `NOP` (rule R130). -/
def execNop (_arg : Word) (s : State) : Answer :=
  complete .ok 0#64 s

/-- `STATUS` (rule R131). -/
def execStatus (_arg : Word) (s : State) : Answer :=
  complete .ok s.statusWord s

/-- `GETSEED` (rule R132). -/
def execGetseed (_arg : Word) (s : State) : Answer :=
  whenSeeded s (complete .ok s.pseed s)

/-- `GETISEED` (rule R133). -/
def execGetiseed (_arg : Word) (s : State) : Answer :=
  whenSeeded s (complete .ok s.iseed s)

/-- `SETCTR c` (rule R134): the cached sample stays. -/
def execSetctr (arg : Word) (s : State) : Answer :=
  whenSeeded s (complete .ok 0#64 (s.setCtr arg))

/-- `GETCTR` (rule R135). -/
def execGetctr (_arg : Word) (s : State) : Answer :=
  whenSeeded s (complete .ok s.ctr s)

/-- `RESET` (rule R136): the command, not the hardware reset. -/
def execReset (_arg : Word) (s : State) : Answer :=
  whenSeeded s (complete .ok 0#64 (s.setCtr s.params.ctrInit).emptyCache)

end Sys2Proof.Machine
end

