-- ==== Sys2Proof/Machine/Cache.lean ====
section
/-! DEFINITION. The cached-sample register commands (44_cache_commands.md). -/

namespace Sys2Proof.Machine

/-- `CPUT v` (rule R146). -/
def execCput (arg : Word) (s : State) : Answer :=
  whenCached s (whenSeeded s (complete .ok 0#64 (s.putCache arg)))

/-- `CTAKE` (rule R147): the payload as it was before the step, and the cache is emptied. -/
def execCtake (_arg : Word) (s : State) : Answer :=
  whenCached s (whenSeeded s
    (if s.cvalid then complete .ok s.cache s.emptyCache else complete .empty 0#64 s))

/-- `CPEEK` (rule R148). -/
def execCpeek (_arg : Word) (s : State) : Answer :=
  whenCached s (whenSeeded s
    (if s.cvalid then complete .ok s.cache s else complete .empty 0#64 s))

end Sys2Proof.Machine
end

