-- ==== Sys2Proof/Machine/Mixer.lean ====
section
/-! DEFINITION. The counter-mixer engine (41_counter_mixer.md): `MIX32` and `MIX64`, two pure total functions of a seed
and a counter, transcribed line for line from rules R101 and R102. -/

namespace Sys2Proof.Machine

/-- `(x >>> 32) * x + addend`, the round the two functions share (rules R101, R102). -/
def mixRound (x addend : Word) : Word := (x >>> 32) * x + addend

/-- `MIX32(seed, counter)` (rule R101). -/
def mix32 (seed counter : Word) : Half :=
  let x0 := seed * counter
  let y := x0
  let x1 := mixRound x0 counter
  let t := x1 + y + counter
  high32 t

/-- `MIX64(seed, counter)` (rule R102), `high32` widened as rule R103 says. -/
def mix64 (seed counter : Word) : Word :=
  let x0 := seed * counter
  let y := x0
  let x1 := mixRound x0 counter
  let x2 := mixRound x1 y
  let a := x2 + y + counter
  let b := x2 + counter
  widenHigh (high32 a) ^^^ b

end Sys2Proof.Machine
end

