-- ==== Sys2Proof/Machine/Conditioner.lean ====
section
/-! DEFINITION. The seed conditioner and `SETSEED` (40_seed_conditioner.md). The walk's scratch values are not state
(rule R30). -/

namespace Sys2Proof.Machine

/-- The loop of rule R83: at most `rotations` more rotations, `remaining` corrections still to make, the guard tested
before each rotation, the low bit tested and set after it (decisions D7, D8). -/
def walk (target : Bool) : (rotations remaining : Nat) → Word → Word
  | 0, _, p => p
  | _ + 1, 0, p => p
  | rotations + 1, remaining + 1, p =>
    let q := rotr p Config.condRot
    if q.getLsbD 0 = target then walk target rotations (remaining + 1) q
    else walk target rotations remaining (withBit0 q target)

/-- The deviation `bit = popcount(p) - 32`, a mathematical integer (rule R82). -/
def deviation (p : Word) : Int := (popcount p : Int) - Config.condTarget

/-- `BALANCE(p)` (rules R82, R83): accepted as it is within the threshold, else the walk towards 32 ones. -/
def balance (p : Word) : Word :=
  if (deviation p).natAbs ≤ Config.condThreshold then p
  else walk (decide (deviation p < 0)) Config.condMaxRot (deviation p).natAbs p

/-- `CONDITION(raw) = BALANCE(MIX64(K_COND, raw))`: the constant in the seed position, the raw seed in the counter
position (rules R80, R81). -/
def condition (kCond raw : Word) : Word := balance (mix64 kCond raw)

/-- The register writes of `SETSEED` other than the cache's (rule R86). -/
def State.seedWith (s : State) (raw : Word) : State :=
  { s with pseed := raw, iseed := condition s.params.kCond raw, ctr := s.params.ctrInit, seeded := true }

/-- `SETSEED s` (rule R86). -/
def execSetseed (arg : Word) (s : State) : Answer :=
  complete .ok 0#64 (s.seedWith arg).emptyCache

end Sys2Proof.Machine
end

