-- ==== Sys2Proof/Machine/Generation.lean ====
section
/-! DEFINITION. The generation commands (42_generation_commands.md). -/

namespace Sys2Proof.Machine

/-- `NEXTINT` (rule R120): the mixer sees the counter before the increment. -/
def execNextint (_arg : Word) (s : State) : Answer :=
  whenSeeded s (complete .ok (zext64 (mix32 s.iseed s.ctr)) s.advanceCtr)

/-- `NEXTLONG` (rule R121). -/
def execNextlong (_arg : Word) (s : State) : Answer :=
  whenSeeded s (complete .ok (mix64 s.iseed s.ctr) s.advanceCtr)

/-- `GETINT p` (rule R122): the probe is fed to the engine directly (decision D28). -/
def execGetint (arg : Word) (s : State) : Answer :=
  whenSeeded s (complete .ok (zext64 (mix32 s.iseed arg)) s)

/-- `GETLONG p` (rule R123). -/
def execGetlong (arg : Word) (s : State) : Answer :=
  whenSeeded s (complete .ok (mix64 s.iseed arg) s)

end Sys2Proof.Machine
end

