-- ==== Sys2Proof/Machine/Dispatch.lean ====
section
/-! DEFINITION. The dispatch of a command to its meaning: one arm per constructor of `Instr`. -/

namespace Sys2Proof.Machine

def exec (i : Instr) (s : State) : Host.Outcome State Fault Refusal :=
  match i with
  | .nop arg => Sys2Proof.Machine.execNop arg s
  | .status arg => Sys2Proof.Machine.execStatus arg s
  | .setseed arg => Sys2Proof.Machine.execSetseed arg s
  | .getseed arg => Sys2Proof.Machine.execGetseed arg s
  | .getiseed arg => Sys2Proof.Machine.execGetiseed arg s
  | .setctr arg => Sys2Proof.Machine.execSetctr arg s
  | .getctr arg => Sys2Proof.Machine.execGetctr arg s
  | .reset arg => Sys2Proof.Machine.execReset arg s
  | .nextint arg => Sys2Proof.Machine.execNextint arg s
  | .nextlong arg => Sys2Proof.Machine.execNextlong arg s
  | .getint arg => Sys2Proof.Machine.execGetint arg s
  | .getlong arg => Sys2Proof.Machine.execGetlong arg s
  | .cput arg => Sys2Proof.Machine.execCput arg s
  | .ctake arg => Sys2Proof.Machine.execCtake arg s
  | .cpeek arg => Sys2Proof.Machine.execCpeek arg s

end Sys2Proof.Machine
end

