-- ==== Sys2Proof/Machine/Ports.lean ====
section
/-! DEFINITION. The ports and their handshake (rules R41, R42) and hardware reset (rule R220), one rising edge of `clk`
at a time: what the outputs show, and what the state becomes at an edge. Machine/Execute.lean puts the cases together. -/

namespace Sys2Proof.Machine

/-- The pins of a host that does nothing: no reset, no command, not ready for a response. What the block sees once
`State.pins` is used up (DESIGN CHOICE, log entry 6). -/
def Pins.idle : Pins := { rst := false, cmdValid := false, cmdWord := 0#72, rspReady := false }

/-- The pins of a host that presents a command word. -/
def Pins.present (w : CommandWord) : Pins := { Pins.idle with cmdValid := true, cmdWord := w }

/-- The pins of a host that takes a response. -/
def Pins.ready : Pins := { Pins.idle with rspReady := true }

/-- The pins sampled at the coming edge (rule R41). -/
def State.edge (s : State) : Pins := s.pins.headD Pins.idle

/-- The edge is past: its pin sample is used up. -/
def State.pastEdge (s : State) : State := { s with pins := s.pins.tail }

/-- `cmd_ready`: no reset, no command in flight and no response undelivered (rules R42, R220). -/
def State.cmdReady (s : State) : Bool := !s.edge.rst && s.flight.isNone && s.rsp.isNone

/-- `rsp_valid`: a response is pending and `rst = 0` (rules R42, R220). -/
def State.rspValid (s : State) : Bool := !s.edge.rst && s.rsp.isSome

/-- `rsp_word` while `rsp_valid = 1`; the spec gives it no value otherwise (rule R42). -/
def State.rspWord (s : State) : Option ResponseWord :=
  if s.rspValid then s.rsp.map Response.word else none

/-- The command word accepted at the coming edge, if one is: `cmd_valid` and `cmd_ready` both 1 (rule R42). -/
def State.accepted (s : State) : Option CommandWord :=
  if s.edge.cmdValid && s.cmdReady then some s.edge.cmdWord else none

/-- The response delivered at the coming edge, if one is: `rsp_valid` and `rsp_ready` both 1 (rule R42). -/
def State.delivered (s : State) : Option Response :=
  if s.rspValid && s.edge.rspReady then s.rsp else none

/-- A command word is accepted and in flight, for as many edges as the implementation takes (rules R42, R228). -/
def State.accept (s : State) (w : CommandWord) : State :=
  { s with flight := some { word := w, left := s.latencies.headD 0 }, latencies := s.latencies.tail }

/-- One edge of work on the command in flight (rule R228). -/
def State.work (s : State) (f : Flight) : State :=
  { s with flight := some { f with left := f.left - 1 } }

/-- The response is delivered and the block is ready again (rule R42). -/
def State.deliver (s : State) : State := { s with rsp := none }

/-- Hardware reset (rule R220): the state of rule R34, whatever was in flight or undelivered abandoned. The parameters
are the instance's; the host's coming pins, the implementation's coming latencies and the free values are not the
block's to reset. -/
def State.hardReset (s : State) : State :=
  { State.resetOf s.params with pins := s.pins, latencies := s.latencies, draws := s.draws }

end Sys2Proof.Machine
end

