-- ==== Sys2Proof/Machine/Execute.lean ====
section
/-! DEFINITION. What a command word does, and what a rising edge of `clk` does (rules R41, R42, R69, R220): at an edge a
command in flight may complete as one atomic step (rule R43). A reserved opcode completes with `ILLEGAL` (rules R64,
R69): every command word in every state has a next state (rule R213). -/

namespace Sys2Proof.Machine

/-- Execute a command word: the decode order of rule R69. -/
def execWord (w : CommandWord) (s : State) : Answer :=
  match decode w with
  | .ok i => exec i s
  | .error (.reservedOpcode _) => complete .illegal 0#64 s

/-- One rising edge of `clk`. Reset goes first (rule R220). A pending response stays until it is delivered; a command
in flight is worked on and completes; else a presented command is accepted (rule R42). -/
def clockEdge (s : State) : Answer :=
  if s.edge.rst then .next s.pastEdge.hardReset
  else
    match s.rsp with
    | some _ => .next (if s.edge.rspReady then s.pastEdge.deliver else s.pastEdge)
    | none =>
      match s.flight with
      | some f => if f.left = 0 then execWord f.word s.pastEdge else .next (s.pastEdge.work f)
      | none => .next (if s.edge.cmdValid then s.pastEdge.accept s.edge.cmdWord else s.pastEdge)

end Sys2Proof.Machine
end

