-- ==== Sys2Proof/Machine/Step.lean ====
section
/-! DEFINITION. One step of the machine: one rising edge of `clk`. -/

namespace Sys2Proof.Machine

/-- One step: one rising edge of `clk` (rules R41, R42, R220). -/
def step (s : State) : Host.Outcome State Fault Refusal := clockEdge s

/-- The state `s` with the command word that `nbits` bits of value `w` give accepted and in its last cycle of flight,
no response undelivered, and a coming edge without reset, so that the very next step executes it (log entry 8). -/
def State.withFetchWord (s : State) (nbits w : Nat) : State :=
  { s with flight := some { word := tableWord nbits w, left := 0 }, rsp := none, pins := Pins.idle :: s.pins }

end Sys2Proof.Machine
end

