-- ==== Sys2Proof/Machine/Script.lean ====
section
/-! DEFINITION. The textual notation of rule R70: command scripts assembled into command words, and words and responses
written as text. Text is a list of characters, so that the kernel can evaluate it. Outside `step`: a script becomes
command words before the block sees it. -/

namespace Sys2Proof.Machine

/-- Why a line of a script is no line of the grammar (rule R70). -/
inductive ScriptError where
  /-- The first word is none of the 15 mnemonics, upper case. -/
  | unknownMnemonic
  /-- `SETSEED`, `SETCTR`, `GETINT`, `GETLONG` or `CPUT` without its operand. -/
  | missingOperand
  /-- An operand after a command whose `arg` is ignored. -/
  | unexpectedOperand
  /-- An operand that is no number of the grammar, or is out of range. -/
  | badOperand
  /-- More than a mnemonic and an operand on one line. -/
  | trailingText
  deriving DecidableEq, Repr

/-- The mnemonics of rule R63 with the commands they name. -/
def scriptTable : List (List Char × (Word → Instr)) :=
  [(['N', 'O', 'P'], .nop), (['S', 'T', 'A', 'T', 'U', 'S'], .status),
   (['S', 'E', 'T', 'S', 'E', 'E', 'D'], .setseed), (['G', 'E', 'T', 'S', 'E', 'E', 'D'], .getseed),
   (['G', 'E', 'T', 'I', 'S', 'E', 'E', 'D'], .getiseed), (['S', 'E', 'T', 'C', 'T', 'R'], .setctr),
   (['G', 'E', 'T', 'C', 'T', 'R'], .getctr), (['R', 'E', 'S', 'E', 'T'], .reset)] ++
  [(['N', 'E', 'X', 'T', 'I', 'N', 'T'], .nextint), (['N', 'E', 'X', 'T', 'L', 'O', 'N', 'G'], .nextlong),
   (['G', 'E', 'T', 'I', 'N', 'T'], .getint), (['G', 'E', 'T', 'L', 'O', 'N', 'G'], .getlong),
   (['C', 'P', 'U', 'T'], .cput), (['C', 'T', 'A', 'K', 'E'], .ctake), (['C', 'P', 'E', 'E', 'K'], .cpeek)]

/-- The digits 0 to 9 and, for base 16, A to F. -/
def upperDigits : List Char :=
  ['0', '1', '2', '3', '4', '5', '6', '7', '8', '9', 'A', 'B', 'C', 'D', 'E', 'F']

/-- The value of a digit of base 10 or 16; a hexadecimal digit may be of either case (DESIGN CHOICE, log entry 11). -/
def digitValue (base : Nat) (c : Char) : Option Nat :=
  match (upperDigits.take base).findIdx? (· == c) with
  | some d => some d
  | none => (['a', 'b', 'c', 'd', 'e', 'f'].take (base - 10)).findIdx? (· == c) |>.map (· + 10)

/-- The number that digits of a base write, most significant first, after the digits already read. -/
def readNumber (base : Nat) : Nat → List Char → Option Nat
  | acc, [] => some acc
  | acc, c :: cs =>
    match digitValue base c with
    | some d => readNumber base (acc * base + d) cs
    | none => none

/-- A decimal number of at least one digit. -/
def readDecimal : List Char → Option Nat
  | [] => none
  | ds => readNumber 10 0 ds

/-- An operand (rule R70): `0x` and 1 to 16 hexadecimal digits, or a decimal from -2^63 to 2^64 - 1, encoded as its
value modulo 2^64. -/
def readOperand : List Char → Option Word
  | '0' :: 'x' :: ds =>
    if 1 ≤ ds.length ∧ ds.length ≤ 16 then (readNumber 16 0 ds).map (BitVec.ofNat 64) else none
  | '-' :: ds =>
    match readDecimal ds with
    | some n => if n ≤ 2 ^ 63 then some (BitVec.ofInt 64 (-(n : Int))) else none
    | none => none
  | ds =>
    match readDecimal ds with
    | some n => if n < 2 ^ 64 then some (BitVec.ofNat 64 n) else none
    | none => none

/-- The pieces of a text between its separators. -/
def splitText (sep : Char → Bool) : List Char → List (List Char)
  | [] => [[]]
  | c :: cs =>
    if sep c then [] :: splitText sep cs
    else
      match splitText sep cs with
      | w :: ws => (c :: w) :: ws
      | [] => [[c]]

/-- The words of a line before its comment (rule R70), separated by spaces or tabs (DESIGN CHOICE, log entry 11). -/
def lineWords (line : List Char) : List (List Char) :=
  (splitText (fun c => c == ' ' || c == '\t') (line.takeWhile (· != '#'))).filter (· != [])

/-- The command a line writes, or `none` for a line without one (rule R70). -/
def assembleLine (line : List Char) : Except ScriptError (Option Instr) :=
  match lineWords line with
  | [] => .ok none
  | m :: operands =>
    match scriptTable.lookup m with
    | none => .error .unknownMnemonic
    | some mk =>
      match operands with
      | [] => if (mk 0#64).takesOperand then .error .missingOperand else .ok (some (mk 0#64))
      | [o] =>
        if (mk 0#64).takesOperand then
          match readOperand o with
          | some v => .ok (some (mk v))
          | none => .error .badOperand
        else .error .unexpectedOperand
      | _ :: _ :: _ => .error .trailingText

/-- The command words of the lines of a script, in order. -/
def assembleLines : List (List Char) → Except ScriptError (List CommandWord)
  | [] => .ok []
  | line :: rest =>
    match assembleLine line, assembleLines rest with
    | .ok (some i), .ok ws => .ok (encode i :: ws)
    | .ok none, .ok ws => .ok ws
    | .error e, _ => .error e
    | .ok _, .error e => .error e

/-- The command words of a script (rule R70). -/
def assemble (script : List Char) : Except ScriptError (List CommandWord) :=
  assembleLines (splitText (· == '\n') script)

/-- `n` hexadecimal digits of a number, most significant first. -/
def showHex : Nat → Nat → List Char
  | 0, _ => []
  | n + 1, v => showHex n (v / 16) ++ [upperDigits.getD (v % 16) '0']

/-- A command word as 18 hexadecimal digits (rule R70; the underscore is for the reader only). -/
def showCommand (w : CommandWord) : List Char := showHex 18 w.toNat

/-- The name of a completion code (rule R200). -/
def Code.text : Code → List Char
  | .ok => ['O', 'K']
  | .illegal => ['I', 'L', 'L', 'E', 'G', 'A', 'L']
  | .unseeded => ['U', 'N', 'S', 'E', 'E', 'D', 'E', 'D']
  | .empty => ['E', 'M', 'P', 'T', 'Y']

/-- A response as `code:data` (rule R70). -/
def showResponse (r : Response) : List Char := r.code.text ++ ':' :: showHex 16 r.data.toNat

end Sys2Proof.Machine
end

