-- ==== Sys2Proof/Machine/Library.lean ====
section
/-! DEFINITION. The host software layer of 48_host_software_layer.md: the pseudo-commands of rule R71 as host code over
the block's commands. It is outside the block (rule R5) and no part of `step`: a pseudo-command is a function from the
state of the block before its commands to the state after them, with the host's own arithmetic on the responses.
`none` is a command that did not complete with the code the recipe expects (an unseeded block, no cache register). -/

namespace Sys2Proof.Machine

/-- Issue a command to a ready block and take its response. -/
def ask (i : Instr) (s : State) : Option (Response × State) :=
  match exec i s with
  | .next t => t.rsp.map fun r => (r, t.deliver)
  | .fault _ => none
  | .refused _ => none

/-- Issue a command and take the data of its `OK` response. -/
def askData (i : Instr) (s : State) : Option (Word × State) :=
  match ask i s with
  | some (⟨.ok, d⟩, t) => some (d, t)
  | some (⟨.illegal, _⟩, _) | some (⟨.unseeded, _⟩, _) | some (⟨.empty, _⟩, _) => none
  | none => none

/-- The draw of rules R162, R163, R168: the 32-bit result of `NEXTINT`. -/
def drawInt (s : State) : Option (BitVec 32 × State) :=
  (askData (.nextint 0#64) s).map fun (d, t) => (low32 d, t)

/-- The draw of rules R164, R169: the result of `NEXTLONG`. -/
def drawLong (s : State) : Option (BitVec 64 × State) := askData (.nextlong 0#64) s

/-- The sign-bit test of rule R162. -/
def boolOf (v : Half) : Bool := v.getLsbD 31

/-- The top 23 bits of rule R163; the float is this integer times 2^-23. -/
def floatBitsOf (v : Half) : BitVec 23 := v.extractLsb' 9 23

/-- The top 52 bits of rule R164; the double is this integer times 2^-52. -/
def doubleBitsOf (v : Word) : BitVec 52 := v.extractLsb' 12 52

/-- The value of a float's 23 bits (rule R163), exact. -/
def floatValue (b : BitVec 23) : Rat := (b.toNat : Rat) / 2 ^ 23

/-- The value of a double's 52 bits (rule R164), exact. -/
def doubleValue (b : BitVec 52) : Rat := (b.toNat : Rat) / 2 ^ 52

/-- `NEXTBOOL` (rule R162). -/
def nextBool (s : State) : Option (Bool × State) :=
  (drawInt s).map fun (v, t) => (boolOf v, t)

/-- `NEXTFLOAT` (rule R163), as its 23 bits. -/
def nextFloat (s : State) : Option (BitVec 23 × State) :=
  (drawInt s).map fun (v, t) => (floatBitsOf v, t)

/-- `NEXTDOUBLE` (rule R164), as its 52 bits. -/
def nextDouble (s : State) : Option (BitVec 52 × State) :=
  (drawLong s).map fun (v, t) => (doubleBitsOf v, t)

/-- `GETBOOL p` (rule R165). -/
def getBool (p : Word) (s : State) : Option (Bool × State) :=
  (askData (.getint p) s).map fun (d, t) => (boolOf (low32 d), t)

/-- `GETFLOAT p` (rule R165), as its 23 bits. -/
def getFloat (p : Word) (s : State) : Option (BitVec 23 × State) :=
  (askData (.getint p) s).map fun (d, t) => (floatBitsOf (low32 d), t)

/-- `GETDOUBLE p` (rule R165), as its 52 bits. -/
def getDouble (p : Word) (s : State) : Option (BitVec 52 × State) :=
  (askData (.getlong p) s).map fun (d, t) => (doubleBitsOf d, t)

/-- `NEXTGAUSSIAN` (rule R166), as its binary64 pattern: the cached sample, else the first of a new pair, whose second
is deposited. KR does not give the pair's formulas (log entry 10). -/
def nextGaussian (s : State) : Option (Word × State) :=
  match ask (.ctake 0#64) s with
  | some (⟨.ok, v⟩, t) => some (v, t)
  | some (⟨.empty, _⟩, t) =>
    match nextDouble t with
    | none => none
    | some (u1, t1) =>
      match nextDouble t1 with
      | none => none
      | some (u2, t2) =>
        (askData (.cput (Config.boxMuller u1 u2).2) t2).map fun (_, t3) => ((Config.boxMuller u1 u2).1, t3)
  | some (⟨.illegal, _⟩, _) | some (⟨.unseeded, _⟩, _) => none
  | none => none

/-- The lowest `k` bytes of a word put in front of a buffer's filled part, the first byte at the highest free index
(rule R167). -/
def pushBytes (w : Word) (k : Nat) (filled : List (BitVec 8)) : List (BitVec 8) :=
  (List.range k).foldl (fun buf j => w.extractLsb' (8 * j) 8 :: buf) filled

/-- The loop of rule R167: `chunks` more words, `i` bytes still free at the front of the buffer. -/
def fillBytes : (chunks i : Nat) → List (BitVec 8) → State → Option (List (BitVec 8) × State)
  | 0, _, filled, s => some (filled, s)
  | chunks + 1, i, filled, s =>
    match drawLong s with
    | some (w, t) => fillBytes chunks (i - min i 8) (pushBytes w (min i 8) filled) t
    | none => none

/-- `NEXTBYTES n` (rule R167, the spec's reading of N12): the buffer from index 0. -/
def nextBytes (n : Nat) (s : State) : Option (List (BitVec 8) × State) :=
  fillBytes ((n + 7) / 8) n [] s

/-- What a range sampler answers (rules R168, R169, R173). -/
inductive Ranged (w : Nat) where
  /-- KR's `InvalidArgument`: no command was issued. -/
  | invalidArgument
  /-- A draw did not complete with `OK`. -/
  | refused
  /-- Every draw of the allowed number was rejected. -/
  | undecided (s : State)
  /-- The sample, and the block after its draws. -/
  | value (v : BitVec w) (s : State)
  deriving DecidableEq, Repr

/-- The rejection loop of rule R168, for at most `tries` draws: `u` is the non-negative draw, and it is accepted where
the bucket it lies in does not run over the top of the range. -/
def rejectionLoop {w : Nat} (draw : State → Option (BitVec w × State)) (max : BitVec w) : Nat → State → Ranged w
  | 0, s => .undecided s
  | tries + 1, s =>
    match draw s with
    | none => .refused
    | some (d, t) =>
      let u := d >>> 1
      let r := u % max
      if (u + (max - 1#w) - r).msb = false then .value r t
      else rejectionLoop draw max tries t

/-- The one-argument range sampler at width `w` (rules R168, R169): masking for a power of two, else rejection. -/
def nextRange {w : Nat} (draw : State → Option (BitVec w × State)) (max : BitVec w) (tries : Nat) (s : State) :
    Ranged w :=
  if max.toInt ≤ 0 then .invalidArgument
  else if max &&& (max - 1#w) = 0#w then
    match draw s with
    | some (d, t) => .value (d &&& (max - 1#w)) t
    | none => .refused
  else rejectionLoop draw max tries s

/-- The two-argument range sampler (rule R169). -/
def nextRangeFrom {w : Nat} (draw : State → Option (BitVec w × State)) (min max : BitVec w) (tries : Nat) (s : State) :
    Ranged w :=
  if max.toInt ≤ min.toInt then .invalidArgument
  else
    match nextRange draw (max - min) tries s with
    | .value v t => .value (min + v) t
    | .invalidArgument => .invalidArgument
    | .refused => .refused
    | .undecided t => .undecided t

/-- `NEXTINTRANGE max` (rule R168). -/
def nextIntRange (max : BitVec 32) (tries : Nat) (s : State) : Ranged 32 := nextRange drawInt max tries s

/-- `NEXTINTRANGE min max` (rule R169). -/
def nextIntRangeFrom (min max : BitVec 32) (tries : Nat) (s : State) : Ranged 32 :=
  nextRangeFrom drawInt min max tries s

/-- `NEXTLONGRANGE max` (rule R169). -/
def nextLongRange (max : BitVec 64) (tries : Nat) (s : State) : Ranged 64 := nextRange drawLong max tries s

/-- `NEXTLONGRANGE min max` (rule R169). -/
def nextLongRangeFrom (min max : BitVec 64) (tries : Nat) (s : State) : Ranged 64 :=
  nextRangeFrom drawLong min max tries s

/-- `CLONE A -> B` (rule R170): re-derive from the public seed, copy the counter, copy a cached sample. The answer is
both instances after it. -/
def clone (a b : State) : Option (State × State) :=
  match askData (.getseed 0#64) a with
  | none => none
  | some (seed, a1) =>
    match askData (.setseed seed) b, askData (.getctr 0#64) a1 with
    | some (_, b1), some (ctr, a2) =>
      match askData (.setctr ctr) b1, ask (.cpeek 0#64) a2 with
      | some (_, b2), some (⟨.ok, v⟩, a3) => (askData (.cput v) b2).map fun (_, b3) => (a3, b3)
      | some (_, b2), some (_, a3) => some (a3, b2)
      | _, _ => none
    | _, _ => none

/-- The data of a register read, without the state after it (a read changes no register). -/
def readOf (i : Instr) (s : State) : Option Word := (askData i s).map (·.1)

/-- `EQUALS` (rule R171): equal `GETCTR`, `GETISEED`, `GETSEED`, and equal code and data of `CPEEK`. -/
def equals (a b : State) : Bool :=
  (readOf (.getctr 0#64) a).isSome && readOf (.getctr 0#64) a == readOf (.getctr 0#64) b
    && readOf (.getiseed 0#64) a == readOf (.getiseed 0#64) b && readOf (.getseed 0#64) a == readOf (.getseed 0#64) b
    && (ask (.cpeek 0#64) a).map (·.1) == (ask (.cpeek 0#64) b).map (·.1)

/-- The `hashCode` analog (rule R171): some function of the four values `EQUALS` compares (log entry 10). -/
def hashCode (s : State) : Option Nat :=
  match readOf (.getseed 0#64) s, readOf (.getiseed 0#64) s, readOf (.getctr 0#64) s with
  | some p, some i, some c => some (Config.hashCode p i c (readOf (.cpeek 0#64) s))
  | _, _, _ => none

/-- The implicit seed (rule R172): a time value XORed with an instance distinguisher, both the host's. R172 does not give
the widths of the two: DESIGN CHOICE, 64 bits each, log entry 16. -/
def implicitSeed (time distinguisher : Word) : Word := time ^^^ distinguisher

/-- Construction without an explicit seed (rules R172, R223), the two ingredients taken as 64-bit words (log
entry 16). -/
def seedImplicitly (time distinguisher : Word) (s : State) : Option State :=
  (askData (.setseed (implicitSeed time distinguisher)) s).map (·.2)

end Sys2Proof.Machine
end

