-- ==== Sys2Proof/WellFormed.lean ====
section
/-! DEFINITION. Which commands exist on an instance. Every value of `arg` is legal in every command (rules R62, R201),
so the only check on a command is rule R65: the three cache commands exist only where `HAS_CACHE = 1`. -/

namespace Sys2Proof

/-- The command is one of the three of 44_cache_commands.md (rules R65, R149). -/
def Instr.isCache : Instr → Bool
  | .cput _ | .ctake _ | .cpeek _ => true
  | .nop _ | .status _ | .setseed _ | .getseed _ | .getiseed _ | .setctr _ | .getctr _ | .reset _
  | .nextint _ | .nextlong _ | .getint _ | .getlong _ => false

/-- The command exists on an instance with parameters `p` (rules R64, R65). -/
def Instr.wellFormed (p : Params) (i : Instr) : Bool :=
  !i.isCache || p.hasCache

end Sys2Proof
end

