-- ==== Sys2Proof/Safety.lean ====
section
/-! DEFINITION. The terms in which statements speak of whole runs: the invariant of the state, the state equality of
rule R31, the functional model of rule R43 on accepted command words, and what an observer of the ports sees. -/

namespace Sys2Proof.Machine

/-- What holds in every state a run reaches: `CVALID = 1` only if `SEEDED = 1` (rule R26); the internal seed is the
conditioned public seed (rule R32); no cached sample without the register (rule R149); at most one command in flight
and none beside an undelivered response (rule R42); a response with a code other than `OK` carries data 0
(rule R68). -/
abbrev State.inv (s : State) : Prop :=
  (s.cvalid = true → s.seeded = true)
    ∧ (s.seeded = true → s.iseed = condition s.params.kCond s.pseed)
    ∧ (s.params.hasCache = false → s.cvalid = false)
    ∧ (s.flight = none ∨ s.rsp = none)
    ∧ (match s.rsp with
        | some r => r.code ≠ .ok → r.data = 0#64
        | none => True)

/-- The state equality of rule R31: the seeds and the counter bit-equal, `CVALID` equal, `CACHE` bit-equal where it
holds a sample, both seeded. -/
abbrev SameState (s t : State) : Prop :=
  s.pseed = t.pseed ∧ s.iseed = t.iseed ∧ s.ctr = t.ctr ∧ s.cvalid = t.cvalid
    ∧ (s.cvalid = true → s.cache = t.cache) ∧ s.seeded = true ∧ t.seeded = true

/-- The state with nothing on the ports: what the functional model of rule R43 is about. -/
def State.quiet (s : State) : State :=
  { s with flight := none, rsp := none, pins := [], latencies := [] }

/-- One accepted command word in the functional model (rules R10, R43): the state after it and its response. -/
def transact (w : CommandWord) (s : State) : Option (Response × State) :=
  match execWord w s with
  | .next t => t.rsp.map fun r => (r, t.deliver)
  | .fault _ => none
  | .refused _ => none

/-- The functional model on a sequence of accepted command words (rule R43). -/
def transactAll : List CommandWord → State → Option (List Response × State)
  | [], s => some ([], s)
  | w :: ws, s =>
    match transact w s with
    | some (r, t) => (transactAll ws t).map fun (rs, u) => (r :: rs, u)
    | none => none

/-- A sequence of commands issued one after the other: the responses and the state after the last. -/
def askAll : List Instr → State → Option (List Response × State)
  | [], s => some ([], s)
  | i :: is, s =>
    match ask i s with
    | some (r, t) => (askAll is t).map fun (rs, u) => (r :: rs, u)
    | none => none

/-- What the ports show over `k` clock edges: the command words accepted, the responses delivered, the state after. -/
structure Observation where
  accepted : List CommandWord
  delivered : List Response
  state : State
  deriving DecidableEq, Repr

/-- Observe `k` clock edges from a state. -/
def observe : Nat → State → Option Observation
  | 0, s => some { accepted := [], delivered := [], state := s }
  | k + 1, s =>
    match step s with
    | .next t =>
      (observe k t).map fun o =>
        { o with accepted := s.accepted.toList ++ o.accepted, delivered := s.delivered.toList ++ o.delivered }
    | .fault _ => none
    | .refused _ => none

/-- The command is `SETSEED`. -/
def isSetseed : Instr → Bool
  | .setseed _ => true
  | .nop _ | .status _ | .getseed _ | .getiseed _ | .setctr _ | .getctr _ | .reset _ | .nextint _ | .nextlong _
  | .getint _ | .getlong _ | .cput _ | .ctake _ | .cpeek _ => false

end Sys2Proof.Machine
end

