-- ==== Sys2Proof/Certificates/Slice0/Obligations.lean ====
section
/-! DEFINITION. The statements for the provers. Each docstring names the rule of spec/ it formalises and, where a clause
rests on a decision the spec marks as its own (D<n>) or on an entry of the assumption log, says so. The block has no
memory (rule R40), so a frame speaks of registers, flags and ports only. -/

open Sys2Proof Sys2Proof.Machine

/-! ## Encoding -/

/-- 30_encoding.md sections 1 and 3 (decisions D10, D11): the fields of a command word, the opcode map read on every
operand value, its "Needs seed" column, and words written out digit by digit from the spec's encoding. -/
def Obligations.OpcodeMapDecodes : Prop :=
  (∀ (op : Opcode) (a : Word), opField (op ++ a) = op ∧ argField (op ++ a) = a)
    ∧ (∀ a : Word,
        decode (0x00#8 ++ a) = .ok (.nop a) ∧ decode (0x01#8 ++ a) = .ok (.status a)
          ∧ decode (0x10#8 ++ a) = .ok (.setseed a) ∧ decode (0x11#8 ++ a) = .ok (.getseed a)
          ∧ decode (0x12#8 ++ a) = .ok (.getiseed a) ∧ decode (0x13#8 ++ a) = .ok (.setctr a)
          ∧ decode (0x14#8 ++ a) = .ok (.getctr a) ∧ decode (0x15#8 ++ a) = .ok (.reset a)
          ∧ decode (0x20#8 ++ a) = .ok (.nextint a) ∧ decode (0x21#8 ++ a) = .ok (.nextlong a)
          ∧ decode (0x22#8 ++ a) = .ok (.getint a) ∧ decode (0x23#8 ++ a) = .ok (.getlong a)
          ∧ decode (0x30#8 ++ a) = .ok (.cput a) ∧ decode (0x31#8 ++ a) = .ok (.ctake a)
          ∧ decode (0x32#8 ++ a) = .ok (.cpeek a))
    ∧ (∀ i : Instr, i.needsSeed = false ↔ i.op = 0x00#8 ∨ i.op = 0x01#8 ∨ i.op = 0x10#8)
    ∧ decode 0x10000000000000002A#72 = .ok (.setseed 0x2A#64)
    ∧ decode 0x23FFFFFFFFFFFFFFFF#72 = .ok (.getlong 0xFFFFFFFFFFFFFFFF#64)
    ∧ decode 0x303FF0000000000000#72 = .ok (.cput 0x3FF0000000000000#64)
    ∧ decode 0x140000000000000055#72 = .ok (.getctr 0x55#64)
    ∧ decode 0x33FFFFFFFFFFFFFFFF#72 = .error (.reservedOpcode 0x33#8)

/-- 30_encoding.md sections 1 to 3: decoding an encoded command gives it back with every operand bit, on every
instance where it exists, and a word that decodes is the encoding of what it decodes to: each word has one meaning. -/
def Obligations.DecodeAndEncodeAgree : Prop :=
  (∀ (p : Params) (i : Instr), i.wellFormed p = true → decode (encode i) = .ok i)
    ∧ (∀ i : Instr, decode (encode i) = .ok i)
    ∧ (∀ (w : CommandWord) (i : Instr), decode w = .ok i → encode i = w)

/-- Rule R64 (decision D13): a word whose `op` is none of the 15 completes with `ILLEGAL` and data 0 and changes
nothing else, in every state and whatever `arg` holds; the reserved values are the four ranges (241 values). -/
def Obligations.ReservedOpcodeAnswersIllegal : Prop :=
  (∀ (w : CommandWord) (s : State),
      opField w ∉ [0x00#8, 0x01#8, 0x10#8, 0x11#8, 0x12#8, 0x13#8, 0x14#8, 0x15#8, 0x20#8, 0x21#8, 0x22#8, 0x23#8,
        0x30#8, 0x31#8, 0x32#8] →
      execWord w s = .next { s with flight := none, rsp := some ⟨.illegal, 0#64⟩ })
    ∧ (∀ op : Opcode,
        op ∉ [0x00#8, 0x01#8, 0x10#8, 0x11#8, 0x12#8, 0x13#8, 0x14#8, 0x15#8, 0x20#8, 0x21#8, 0x22#8, 0x23#8,
          0x30#8, 0x31#8, 0x32#8] ↔
          (0x02 ≤ op.toNat ∧ op.toNat ≤ 0x0F) ∨ (0x16 ≤ op.toNat ∧ op.toNat ≤ 0x1F)
            ∨ (0x24 ≤ op.toNat ∧ op.toNat ≤ 0x2F) ∨ (0x33 ≤ op.toNat ∧ op.toNat ≤ 0xFF))

/-- Rule R62 (decision D13): the operand is the low 64 bits of the word, used whole; it has no effect in a command that
takes none, and the assembler emits 0 for one. -/
def Obligations.UnusedOperandIsIgnored : Prop :=
  (∀ (op : Opcode) (a : Word), argField (op ++ a) = a)
    ∧ (∀ i : Instr, encode i = i.op ++ i.arg)
    ∧ (∀ i : Instr, i.takesOperand = true ↔
        i.op = 0x10#8 ∨ i.op = 0x13#8 ∨ i.op = 0x22#8 ∨ i.op = 0x23#8 ∨ i.op = 0x30#8)
    ∧ (∀ (i j : Instr) (s : State), i.op = j.op → i.takesOperand = false → exec i s = exec j s)
    ∧ (∀ row ∈ scriptTable, (row.2 0#64).takesOperand = false → assembleLine row.1 = .ok (some (row.2 0#64)))

/-- 30_encoding.md section 7 (decision D23), rule R70's grammar on lines and on whole scripts. The 15 mnemonics name their
opcodes. A mnemonic that takes an operand assembles, with `0x` and 1 to 16 hexadecimal digits, to the word with that
operand, and is refused without one; a mnemonic that takes none assembles alone to its word with operand 0 and is refused
with one. A decimal operand is its value modulo 2^64 from -2^63 to 2^64 - 1, and is refused outside. A line that is empty,
or a comment, writes nothing; a word that is no mnemonic is refused. Log entry 11
(DESIGN CHOICE) is the model's own choice in four points: the digits shown are upper-case, one space stands before the
operand, a decimal may have leading zeros, and a script may lack the newline that the grammar asks for at its end (each
clause on `assemble` is given with it and without it). -/
def Obligations.ScriptLinesAssemble : Prop :=
  scriptTable.map (fun row => (row.1, (row.2 0#64).op)) =
      [(['N', 'O', 'P'], 0x00#8), (['S', 'T', 'A', 'T', 'U', 'S'], 0x01#8),
       (['S', 'E', 'T', 'S', 'E', 'E', 'D'], 0x10#8), (['G', 'E', 'T', 'S', 'E', 'E', 'D'], 0x11#8),
       (['G', 'E', 'T', 'I', 'S', 'E', 'E', 'D'], 0x12#8), (['S', 'E', 'T', 'C', 'T', 'R'], 0x13#8),
       (['G', 'E', 'T', 'C', 'T', 'R'], 0x14#8), (['R', 'E', 'S', 'E', 'T'], 0x15#8),
       (['N', 'E', 'X', 'T', 'I', 'N', 'T'], 0x20#8), (['N', 'E', 'X', 'T', 'L', 'O', 'N', 'G'], 0x21#8),
       (['G', 'E', 'T', 'I', 'N', 'T'], 0x22#8), (['G', 'E', 'T', 'L', 'O', 'N', 'G'], 0x23#8),
       (['C', 'P', 'U', 'T'], 0x30#8), (['C', 'T', 'A', 'K', 'E'], 0x31#8), (['C', 'P', 'E', 'E', 'K'], 0x32#8)]
    ∧ (∀ i : Instr, ∃ row ∈ scriptTable, row.2 i.arg = i)
    ∧ (∀ row ∈ scriptTable, ∀ (n : Nat) (v : Word), 1 ≤ n → n ≤ 16 → v.toNat < 16 ^ n →
      (row.2 0#64).takesOperand = true →
        assembleLine (row.1 ++ [' ', '0', 'x'] ++ showHex n v.toNat) = .ok (some (row.2 v))
          ∧ assemble (row.1 ++ [' ', '0', 'x'] ++ showHex n v.toNat) = .ok [(row.2 v).op ++ v]
          ∧ assemble (row.1 ++ [' ', '0', 'x'] ++ showHex n v.toNat ++ ['\n']) = .ok [(row.2 v).op ++ v]
          ∧ assembleLine row.1 = .error .missingOperand)
    ∧ (∀ row ∈ scriptTable, ∀ v : Word, (row.2 0#64).takesOperand = false →
      assemble row.1 = .ok [(row.2 0#64).op ++ 0#64]
        ∧ assemble (row.1 ++ ['\n']) = .ok [(row.2 0#64).op ++ 0#64]
        ∧ assembleLine (row.1 ++ [' ', '0', 'x'] ++ showHex 16 v.toNat) = .error .unexpectedOperand)
    ∧ (∀ digits : List (Fin 10), digits ≠ [] →
      let n : Nat := digits.foldl (fun m d => m * 10 + d.val) 0
      let text : List Char := digits.map fun d => upperDigits.getD d.val '0'
      readOperand text = (if n < 2 ^ 64 then some (BitVec.ofNat 64 n) else none)
        ∧ readOperand ('-' :: text) = (if n ≤ 2 ^ 63 then some (BitVec.ofInt 64 (-(n : Int))) else none)
        ∧ (∀ row ∈ scriptTable, (row.2 0#64).takesOperand = true →
          assembleLine (row.1 ++ ' ' :: text) = (if n < 2 ^ 64 then .ok (some (row.2 (BitVec.ofNat 64 n)))
            else .error .badOperand)
          ∧ assembleLine (row.1 ++ ' ' :: '-' :: text) =
            (if n ≤ 2 ^ 63 then .ok (some (row.2 (BitVec.ofInt 64 (-(n : Int))))) else .error .badOperand)))
    ∧ (∀ comment : List Char, assembleLine ('#' :: comment) = .ok none)
    ∧ assembleLine [] = .ok none ∧ assemble ['\n'] = .ok []
    ∧ assembleLine ['n', 'o', 'p'] = .error .unknownMnemonic

/-! ## The counter mixer -/

/-- Rule R101 in exact integers: every product and sum taken modulo 2^64, the shift a division by 2^32, the result the
high half; with the rule's worked example. -/
def Obligations.Mix32InIntegers : Prop :=
  (∀ seed counter : Word,
      let x0 := seed.toNat * counter.toNat % 2 ^ 64
      let x1 := (x0 / 2 ^ 32 * x0 + counter.toNat) % 2 ^ 64
      (mix32 seed counter).toNat = (x1 + x0 + counter.toNat) % 2 ^ 64 / 2 ^ 32)
    ∧ mix32 0x0123456789ABCDEF#64 1#64 = 0xDCBA9876#32

/-- Rules R102 and R103 (zero extension, decision D6) in exact integers; the high half of the result is the high half
of the sum `b`; with the rules' worked example. -/
def Obligations.Mix64InIntegers : Prop :=
  (∀ seed counter : Word,
      let x0 := seed.toNat * counter.toNat % 2 ^ 64
      let x1 := (x0 / 2 ^ 32 * x0 + counter.toNat) % 2 ^ 64
      let x2 := (x1 / 2 ^ 32 * x1 + x0) % 2 ^ 64
      let a := (x2 + x0 + counter.toNat) % 2 ^ 64
      let b := (x2 + counter.toNat) % 2 ^ 64
      (mix64 seed counter).toNat = (a / 2 ^ 32) ^^^ b ∧ (mix64 seed counter).toNat / 2 ^ 32 = b / 2 ^ 32)
    ∧ mix64 0x0123456789ABCDEF#64 1#64 = 0xB7464EAC8510D62F#64

/-- 41_counter_mixer.md section 5 (the table the spec marks as derived): counter 0, seed 0, small products, and the
fixed rows. -/
def Obligations.MixerCornerCases : Prop :=
  (∀ s : Word, mix32 s 0#64 = 0#32 ∧ mix64 s 0#64 = 0#64)
    ∧ (∀ c : Word,
        mix32 0#64 c = high32 (2#64 * c)
          ∧ mix64 0#64 c = zext64 (high32 ((c >>> 32) * c + c)) ^^^ ((c >>> 32) * c + c)
          ∧ (c.toNat < 2 ^ 31 → mix32 0#64 c = 0#32) ∧ (c.toNat < 2 ^ 32 → mix64 0#64 c = c))
    ∧ (∀ s c : Word, 1 ≤ s.toNat → s.toNat * c.toNat < 2 ^ 32 →
        mix32 s c = high32 (2#64 * c + s * c)
          ∧ (2 * c.toNat + s.toNat * c.toNat < 2 ^ 32 → mix32 s c = 0#32)
          ∧ (2 * (s.toNat * c.toNat) + c.toNat < 2 ^ 32 → mix64 s c = s * c + c))
    ∧ mix32 1#64 1#64 = 0#32 ∧ mix64 1#64 1#64 = 2#64
    ∧ mix32 3#64 5#64 = 0#32 ∧ mix64 3#64 5#64 = 0x14#64
    ∧ mix32 0xFFFFFFFFFFFFFFFF#64 0xFFFFFFFFFFFFFFFF#64 = 0xFFFFFFFF#32
    ∧ mix64 0xFFFFFFFFFFFFFFFF#64 0xFFFFFFFFFFFFFFFF#64 = 0xFFFFFFFFFFFFFFFE#64
    ∧ mix32 0x8000000000000000#64 0x8000000000000000#64 = 0#32
    ∧ mix64 0x8000000000000000#64 0x8000000000000000#64 = 0x8000000080000000#64

/-! ## The seed conditioner -/

/-- Rule R82: the deviation is an integer from -32 to 32, and a word with 30 to 34 ones is accepted as it is; with the
rule's worked example. -/
def Obligations.BalanceAcceptsWithinThreshold : Prop :=
  (∀ p : Word, -32 ≤ (popcount p : Int) - 32 ∧ (popcount p : Int) - 32 ≤ 32)
    ∧ (∀ p : Word, ((popcount p : Int) - 32).natAbs ≤ 2 → balance p = p)
    ∧ (∀ p : Word, 30 ≤ popcount p → popcount p ≤ 34 → balance p = p)
    ∧ balance 0x00000003FFFFFFFF#64 = 0x00000003FFFFFFFF#64

/-- Rule R83 (decisions D7, D8): outside the threshold `BALANCE` is 63 rounds of the rule's loop body on the word and
the remaining count, the body doing nothing once the count is 0. -/
def Obligations.BalanceIsTheBoundedWalk : Prop :=
  ∀ p : Word, 2 < ((popcount p : Int) - 32).natAbs →
    let target : Bool := if 0 < (popcount p : Int) - 32 then false else true
    let body : Word × Nat → Word × Nat := fun x =>
      if x.2 = 0 then x
      else
        let q := x.1.rotateRight 15
        if q.getLsbD 0 = target then (q, x.2)
        else (if target then q ||| 1#64 else q &&& ~~~1#64, x.2 - 1)
    balance p = (body^[63] (p, ((popcount p : Int) - 32).natAbs)).1

/-- 40_seed_conditioner.md section 2, the properties of the walk the spec derives (items 2, 3 and 5): out of the
threshold the walk ends with exactly 32 ones; every result has 30 to 34; `BALANCE` is idempotent. -/
def Obligations.BalanceEndsWithThirtyTwoOnes : Prop :=
  (∀ p : Word, 2 < ((popcount p : Int) - 32).natAbs → popcount (balance p) = 32)
    ∧ (∀ p : Word, 30 ≤ popcount (balance p) ∧ popcount (balance p) ≤ 34)
    ∧ (∀ p : Word, balance (balance p) = balance p)

/-- 40_seed_conditioner.md section 2, derived item 1: rotation `j` brings original bit `15 j mod 64` to position 0, and
the 63 rotations visit 63 different positions, bit 0 not among them. -/
def Obligations.WalkVisitsDistinctPositions : Prop :=
  (∀ (p : Word) (j : Nat), ((fun q : Word => rotr q 15)^[j] p).getLsbD 0 = p.getLsbD (15 * j % 64))
    ∧ (∀ j k : Nat, 1 ≤ j → j ≤ 63 → 1 ≤ k → k ≤ 63 → 15 * j % 64 = 15 * k % 64 → j = k)
    ∧ (∀ j : Nat, 1 ≤ j → j ≤ 63 → 15 * j % 64 ≠ 0)

/-- 40_seed_conditioner.md section 2, derived item 4: the result is the original rotated by `15 r mod 64`, for a number
`r` of rotations from the deviation to 63, with as many bits changed as the deviation. -/
def Obligations.BalanceChangesDeviationManyBits : Prop :=
  ∀ p : Word, 2 < ((popcount p : Int) - 32).natAbs →
    ∃ r : Nat, ((popcount p : Int) - 32).natAbs ≤ r ∧ r ≤ 63
      ∧ popcount (balance p ^^^ rotr p (15 * r % 64)) = ((popcount p : Int) - 32).natAbs

/-- 40_seed_conditioner.md section 4: the walk is symmetric under complement. -/
def Obligations.BalanceCommutesWithComplement : Prop :=
  ∀ p : Word, balance (~~~p) = ~~~(balance p)

/-- 40_seed_conditioner.md sections 1, 2 and 4: the raw seed goes in the counter position and the constant in the seed
position; raw seed 0 gives pre-seed 0 and the same internal seed for every constant; with values that the spec marks as
derived (the trace of section 2 and the corner cases of section 4). -/
def Obligations.ConditionBalancesThePreSeed : Prop :=
  (∀ k raw : Word, condition k raw = balance (mix64 k raw))
    ∧ (∀ k : Word, mix64 k 0#64 = 0#64 ∧ condition k 0#64 = 0x6666CCCC99993333#64)
    ∧ balance 0x00000007FFFFFFFF#64 = 0xFFE0000000F7FFEE#64
    ∧ balance 0xFFFFFFFFFFFFFFFF#64 = 0x999933336666CCCC#64
    ∧ balance 0x0000000000000001#64 = 0x6666CCCC99993333#64

/-! ## The commands, each with its own rule -/

/-- Rule R130 (decision D29): `NOP` completes with `OK` and data 0, seeded or not, and changes nothing else. -/
def Obligations.NopDoesNothing : Prop :=
  (∀ (a : Word) (s : State), exec (.nop a) s = .next { s with flight := none, rsp := some ⟨.ok, 0#64⟩ })
    ∧ decode 0x000000000000000000#72 = .ok (.nop 0#64)

/-- Rules R131 and R29 (decision D29): `STATUS` answers the status word, bit by bit as the layout says, seeded or not,
and changes nothing else; with the worked examples. -/
def Obligations.StatusReadsTheStatusWord : Prop :=
  (∀ (a : Word) (s : State), exec (.status a) s = .next { s with flight := none, rsp := some ⟨.ok, s.statusWord⟩ })
    ∧ (∀ s : State,
        s.statusWord.getLsbD 0 = s.seeded
          ∧ s.statusWord.getLsbD 1 = (s.cvalid && s.params.hasCache)
          ∧ s.statusWord.getLsbD 2 = s.params.hasCache
          ∧ s.statusWord.extractLsb' 8 8 = 0x01#8
          ∧ (∀ j : Nat, 3 ≤ j → j ≤ 7 → s.statusWord.getLsbD j = false)
          ∧ (∀ j : Nat, 16 ≤ j → j ≤ 63 → s.statusWord.getLsbD j = false))
    ∧ (∀ p : Params, (State.resetOf p).statusWord = if p.hasCache then 0x104#64 else 0x100#64)
    ∧ (∀ s : State, s.seeded = true → s.statusWord =
        if s.params.hasCache then (if s.cvalid then 0x107#64 else 0x105#64) else 0x101#64)

/-- Rule R86: `SETSEED` from every state, whatever it held: the five writes, `OK` with data 0, and nothing else changed
but the content of `CACHE`, of which nothing is said; with the worked example. -/
def Obligations.SetseedSeedsTheBlock : Prop :=
  ∀ (raw : Word) (s : State), ∃ t,
    exec (.setseed raw) s = .next t
      ∧ t.pseed = raw ∧ t.iseed = condition s.params.kCond raw ∧ t.ctr = s.params.ctrInit
      ∧ t.cvalid = false ∧ t.seeded = true ∧ t.rsp = some ⟨.ok, 0#64⟩ ∧ t.flight = none
      ∧ t.params = s.params ∧ t.pins = s.pins ∧ t.latencies = s.latencies
      ∧ (raw = 0#64 → t.iseed = 0x6666CCCC99993333#64)

/-- Rule R132: `GETSEED` answers the public seed and changes nothing else, or `UNSEEDED`; it is the operand of the most
recent `SETSEED`, bit for bit, whatever other commands came between. -/
def Obligations.GetseedReadsPublicSeed : Prop :=
  (∀ (a : Word) (s : State), s.seeded = true →
      exec (.getseed a) s = .next { s with flight := none, rsp := some ⟨.ok, s.pseed⟩ })
    ∧ (∀ (a : Word) (s : State), s.seeded = false →
      exec (.getseed a) s = .next { s with flight := none, rsp := some ⟨.unseeded, 0#64⟩ })
    ∧ (∀ (raw a : Word) (cmds : List Instr) (s : State), (∀ i ∈ cmds, isSetseed i = false) →
      ((askAll (.setseed raw :: cmds ++ [.getseed a]) s).map (·.1)).map (·.getLast?) = some (some ⟨.ok, raw⟩))

/-- Rule R133 (decision D17): `GETISEED` answers the internal seed and changes nothing else, or `UNSEEDED`; with the
worked example. -/
def Obligations.GetiseedReadsInternalSeed : Prop :=
  (∀ (a : Word) (s : State), s.seeded = true →
      exec (.getiseed a) s = .next { s with flight := none, rsp := some ⟨.ok, s.iseed⟩ })
    ∧ (∀ (a : Word) (s : State), s.seeded = false →
      exec (.getiseed a) s = .next { s with flight := none, rsp := some ⟨.unseeded, 0#64⟩ })
    ∧ (∀ (a : Word) (s : State),
      (askAll [.setseed 0#64, .getiseed a] s).map (·.1) = some [⟨.ok, 0#64⟩, ⟨.ok, 0x6666CCCC99993333#64⟩])

/-- Rule R134: `SETCTR` writes `CTR` and nothing else (the cached sample stays), or `UNSEEDED`; with the worked
example. -/
def Obligations.SetctrWritesTheCounter : Prop :=
  (∀ (c : Word) (s : State), s.seeded = true →
      exec (.setctr c) s = .next { s with ctr := c, flight := none, rsp := some ⟨.ok, 0#64⟩ })
    ∧ (∀ (c : Word) (s : State), s.seeded = false →
      exec (.setctr c) s = .next { s with flight := none, rsp := some ⟨.unseeded, 0#64⟩ })
    ∧ (∀ (a : Word) (s : State), s.seeded = true →
      (askAll [.setctr 0x100#64, .getctr a] s).map (·.1) = some [⟨.ok, 0#64⟩, ⟨.ok, 0x100#64⟩])

/-- Rule R135: `GETCTR` answers the counter and changes nothing else, or `UNSEEDED`; after `SETSEED` and three
`NEXTINT` it is `CTR_INIT + 3`. -/
def Obligations.GetctrReadsTheCounter : Prop :=
  (∀ (a : Word) (s : State), s.seeded = true →
      exec (.getctr a) s = .next { s with flight := none, rsp := some ⟨.ok, s.ctr⟩ })
    ∧ (∀ (a : Word) (s : State), s.seeded = false →
      exec (.getctr a) s = .next { s with flight := none, rsp := some ⟨.unseeded, 0#64⟩ })
    ∧ (∀ (raw a : Word) (s : State),
      ((askAll [.setseed raw, .nextint a, .nextint a, .nextint a, .getctr a] s).map (·.1)).map (·.getLast?)
        = some (some ⟨.ok, s.params.ctrInit + 3#64⟩))

/-- Rule R136: `RESET` writes `CTR_INIT` to `CTR` and clears `CVALID`, keeps both seeds and `SEEDED`, says nothing of
the content of `CACHE`, and changes nothing else; `UNSEEDED` before the first seed; right after `SETSEED` or another
`RESET` it changes nothing. -/
def Obligations.ResetRestoresTheSentinel : Prop :=
  (∀ (a : Word) (s : State), s.seeded = true → ∃ t,
      exec (.reset a) s = .next t
        ∧ t.ctr = s.params.ctrInit ∧ t.cvalid = false ∧ t.rsp = some ⟨.ok, 0#64⟩ ∧ t.flight = none
        ∧ t.pseed = s.pseed ∧ t.iseed = s.iseed ∧ t.seeded = s.seeded
        ∧ t.params = s.params ∧ t.pins = s.pins ∧ t.latencies = s.latencies
        ∧ (s.ctr = s.params.ctrInit → s.cvalid = false → SameState s t))
    ∧ (∀ (a : Word) (s : State), s.seeded = false →
      exec (.reset a) s = .next { s with flight := none, rsp := some ⟨.unseeded, 0#64⟩ })

/-- Rule R120: `NEXTINT` answers `MIX32` of the counter before the increment, zero-extended, and advances `CTR` only;
`UNSEEDED` before the first seed; with the corner cases and the worked example. -/
def Obligations.NextintDrawsAndAdvances : Prop :=
  (∀ (a : Word) (s : State), s.seeded = true →
      exec (.nextint a) s = .next
        { s with ctr := s.ctr + 1#64, flight := none, rsp := some ⟨.ok, (mix32 s.iseed s.ctr).setWidth 64⟩ })
    ∧ (∀ (a : Word) (s : State), s.seeded = false →
      exec (.nextint a) s = .next { s with flight := none, rsp := some ⟨.unseeded, 0#64⟩ })
    ∧ (∀ (a : Word) (s : State), s.seeded = true → s.ctr = 0#64 →
      exec (.nextint a) s = .next { s with ctr := 1#64, flight := none, rsp := some ⟨.ok, 0#64⟩ })
    ∧ (∀ (a : Word) (s : State), s.seeded = true → s.ctr = 0xFFFFFFFFFFFFFFFF#64 → ∃ t,
      exec (.nextint a) s = .next t ∧ t.ctr = 0#64)
    ∧ (∀ (a : Word) (s : State), s.seeded = true → s.iseed = 0x6666CCCC99993333#64 → s.ctr = 1#64 →
      exec (.nextint a) s = .next { s with ctr := 2#64, flight := none, rsp := some ⟨.ok, 0x000000000A3D47AD#64⟩ })

/-- Rule R121: `NEXTLONG` answers `MIX64` of the counter before the increment and advances `CTR` by 1 only; `UNSEEDED`
before the first seed; with the corner cases and the worked example. -/
def Obligations.NextlongDrawsAndAdvances : Prop :=
  (∀ (a : Word) (s : State), s.seeded = true →
      exec (.nextlong a) s = .next
        { s with ctr := s.ctr + 1#64, flight := none, rsp := some ⟨.ok, mix64 s.iseed s.ctr⟩ })
    ∧ (∀ (a : Word) (s : State), s.seeded = false →
      exec (.nextlong a) s = .next { s with flight := none, rsp := some ⟨.unseeded, 0#64⟩ })
    ∧ (∀ (a : Word) (s : State), s.seeded = true → s.ctr = 0#64 →
      exec (.nextlong a) s = .next { s with ctr := 1#64, flight := none, rsp := some ⟨.ok, 0#64⟩ })
    ∧ (∀ (a : Word) (s : State), s.seeded = true → s.ctr = 0xFFFFFFFFFFFFFFFF#64 → ∃ t,
      exec (.nextlong a) s = .next t ∧ t.ctr = 0#64)
    ∧ (∀ (a b : Word) (s : State), s.seeded = true → s.iseed = 0x6666CCCC99993333#64 → s.ctr = 1#64 →
      (askAll [.nextlong a, .nextlong b] s).map (fun x => (x.1, x.2.ctr))
        = some ([⟨.ok, 0xB852ACDA48D2AF9F#64⟩, ⟨.ok, 0x3129D7DC5BBF7A0D#64⟩], 3#64))

/-- Rule R122 (decision D28): `GETINT` answers `MIX32` at the probe, zero-extended, and changes nothing else, whatever
`CTR` is; `UNSEEDED` before the first seed; probe 0 gives 0; with the worked example. -/
def Obligations.GetintProbesWithoutEffect : Prop :=
  (∀ (p : Word) (s : State), s.seeded = true →
      exec (.getint p) s = .next { s with flight := none, rsp := some ⟨.ok, (mix32 s.iseed p).setWidth 64⟩ })
    ∧ (∀ (p : Word) (s : State), s.seeded = false →
      exec (.getint p) s = .next { s with flight := none, rsp := some ⟨.unseeded, 0#64⟩ })
    ∧ (∀ s : State, s.seeded = true →
      exec (.getint 0#64) s = .next { s with flight := none, rsp := some ⟨.ok, 0#64⟩ })
    ∧ (∀ (a : Word) (s : State), (ask (.getint s.ctr) s).map (·.1) = (ask (.nextint a) s).map (·.1))
    ∧ (∀ s : State, s.seeded = true → s.iseed = 0x6666CCCC99993333#64 →
      exec (.getint 2#64) s = .next { s with flight := none, rsp := some ⟨.ok, 0x0000000028F51EB7#64⟩ })

/-- Rule R123: `GETLONG` answers `MIX64` at the probe and changes nothing else, whatever `CTR` is; `UNSEEDED` before the
first seed; with the corner cases and the worked examples. -/
def Obligations.GetlongProbesWithoutEffect : Prop :=
  (∀ (p : Word) (s : State), s.seeded = true →
      exec (.getlong p) s = .next { s with flight := none, rsp := some ⟨.ok, mix64 s.iseed p⟩ })
    ∧ (∀ (p : Word) (s : State), s.seeded = false →
      exec (.getlong p) s = .next { s with flight := none, rsp := some ⟨.unseeded, 0#64⟩ })
    ∧ (∀ s : State, s.seeded = true →
      exec (.getlong 0#64) s = .next { s with flight := none, rsp := some ⟨.ok, 0#64⟩ })
    ∧ (∀ (a : Word) (s : State), (ask (.getlong s.ctr) s).map (·.1) = (ask (.nextlong a) s).map (·.1))
    ∧ (∀ s : State, s.seeded = true → s.iseed = 0x6666CCCC99993333#64 →
      exec (.getlong 0xFFFFFFFFFFFFFFFF#64) s
        = .next { s with flight := none, rsp := some ⟨.ok, 0xF1A9487F1A93E37A#64⟩ })

/-- Rule R146: `CPUT` deposits the payload and sets `CVALID`, also over an earlier one, and changes nothing else;
`UNSEEDED` before the first seed; `ILLEGAL` without the register. -/
def Obligations.CputDepositsThePayload : Prop :=
  (∀ (v : Word) (s : State), s.params.hasCache = true → s.seeded = true →
      exec (.cput v) s = .next { s with cache := v, cvalid := true, flight := none, rsp := some ⟨.ok, 0#64⟩ })
    ∧ (∀ (v : Word) (s : State), s.params.hasCache = true → s.seeded = false →
      exec (.cput v) s = .next { s with flight := none, rsp := some ⟨.unseeded, 0#64⟩ })
    ∧ (∀ (v : Word) (s : State), s.params.hasCache = false →
      exec (.cput v) s = .next { s with flight := none, rsp := some ⟨.illegal, 0#64⟩ })

/-- Rule R147: `CTAKE` answers the payload as it was before the step and clears `CVALID`, saying nothing of the content
of `CACHE` after it and changing nothing else; `EMPTY` with nothing changed where nothing is cached; `UNSEEDED` before
the first seed; `ILLEGAL` without the register; twice in a row it is `OK`, then `EMPTY`. -/
def Obligations.CtakeCollectsTheSample : Prop :=
  (∀ (a : Word) (s : State), s.params.hasCache = true → s.seeded = true → s.cvalid = true → ∃ t,
      exec (.ctake a) s = .next t
        ∧ t.rsp = some ⟨.ok, s.cache⟩ ∧ t.cvalid = false ∧ t.flight = none
        ∧ t.pseed = s.pseed ∧ t.iseed = s.iseed ∧ t.ctr = s.ctr ∧ t.seeded = s.seeded
        ∧ t.params = s.params ∧ t.pins = s.pins ∧ t.latencies = s.latencies)
    ∧ (∀ (a : Word) (s : State), s.params.hasCache = true → s.seeded = true → s.cvalid = false →
      exec (.ctake a) s = .next { s with flight := none, rsp := some ⟨.empty, 0#64⟩ })
    ∧ (∀ (a : Word) (s : State), s.params.hasCache = true → s.seeded = false →
      exec (.ctake a) s = .next { s with flight := none, rsp := some ⟨.unseeded, 0#64⟩ })
    ∧ (∀ (a : Word) (s : State), s.params.hasCache = false →
      exec (.ctake a) s = .next { s with flight := none, rsp := some ⟨.illegal, 0#64⟩ })
    ∧ (∀ (v a : Word) (s : State), s.params.hasCache = true → s.seeded = true →
      (askAll [.cput v, .ctake a, .ctake a] s).map (·.1) = some [⟨.ok, 0#64⟩, ⟨.ok, v⟩, ⟨.empty, 0#64⟩])

/-- Rule R148: `CPEEK` answers the payload and changes nothing; `EMPTY` where nothing is cached; the other codes as for
`CTAKE`; any number of times the same. -/
def Obligations.CpeekReadsTheSample : Prop :=
  (∀ (a : Word) (s : State), s.params.hasCache = true → s.seeded = true → s.cvalid = true →
      exec (.cpeek a) s = .next { s with flight := none, rsp := some ⟨.ok, s.cache⟩ })
    ∧ (∀ (a : Word) (s : State), s.params.hasCache = true → s.seeded = true → s.cvalid = false →
      exec (.cpeek a) s = .next { s with flight := none, rsp := some ⟨.empty, 0#64⟩ })
    ∧ (∀ (a : Word) (s : State), s.params.hasCache = true → s.seeded = false →
      exec (.cpeek a) s = .next { s with flight := none, rsp := some ⟨.unseeded, 0#64⟩ })
    ∧ (∀ (a : Word) (s : State), s.params.hasCache = false →
      exec (.cpeek a) s = .next { s with flight := none, rsp := some ⟨.illegal, 0#64⟩ })
    ∧ (∀ (v a : Word) (s : State) (n : Nat), s.params.hasCache = true → s.seeded = true →
      (askAll (.cput v :: List.replicate n (.cpeek a)) s).map (·.1)
        = some (⟨.ok, 0#64⟩ :: List.replicate n ⟨.ok, v⟩))

/-! ## Rules over all commands -/

/-- Rule R65 (decision D5), with what 44_cache_commands.md says of an instance without the register: its three opcodes
complete with `ILLEGAL` and change nothing, seeded or not, whatever `arg` holds, and every other command but `STATUS`
answers as it does with the register and leaves the same seeds, counter and flags. -/
def Obligations.WithoutCacheItsOpcodesAreReserved : Prop :=
  (∀ (w : CommandWord) (s : State), s.params.hasCache = false →
      opField w = 0x30#8 ∨ opField w = 0x31#8 ∨ opField w = 0x32#8 →
      execWord w s = .next { s with flight := none, rsp := some ⟨.illegal, 0#64⟩ })
    ∧ (∀ (i : Instr) (s : State), i.isCache = false → ∃ t u,
      exec i { s with params := { s.params with hasCache := false } } = .next t
        ∧ exec i { s with params := { s.params with hasCache := true } } = .next u
        ∧ ((∀ a, i ≠ .status a) → t.rsp = u.rsp)
        ∧ t.pseed = u.pseed ∧ t.iseed = u.iseed ∧ t.ctr = u.ctr ∧ t.cvalid = u.cvalid ∧ t.seeded = u.seeded)

/-- Rule R69 (decisions D13, D15): the decode order. A reserved opcode is `ILLEGAL`; else a command that needs a seed is
`UNSEEDED` while unseeded; else the command's own meaning runs, and the only other code than `OK` it gives is `EMPTY`,
from `CTAKE` and `CPEEK`. -/
def Obligations.DecodeOrder : Prop :=
  ∀ (w : CommandWord) (s : State),
    match decode w with
    | .error _ => execWord w s = .next { s with flight := none, rsp := some ⟨.illegal, 0#64⟩ }
    | .ok i =>
      if i.wellFormed s.params = false then
        execWord w s = .next { s with flight := none, rsp := some ⟨.illegal, 0#64⟩ }
      else if i.needsSeed = true ∧ s.seeded = false then
        execWord w s = .next { s with flight := none, rsp := some ⟨.unseeded, 0#64⟩ }
      else
        execWord w s = exec i s ∧ ∃ t r, exec i s = .next t ∧ t.rsp = some r
          ∧ (r.code = .ok ∨ r.code = .empty ∧ (i.op = 0x31#8 ∨ i.op = 0x32#8))

/-- Rule R200 (decision D12): exactly when a defined command answers each code, and the four codes' values. -/
def Obligations.CompletionCodes : Prop :=
  (∀ (i : Instr) (s : State), ∃ t r, exec i s = .next t ∧ t.rsp = some r
      ∧ (r.code = .illegal ↔ i.isCache = true ∧ s.params.hasCache = false)
      ∧ (r.code = .unseeded ↔ i.wellFormed s.params = true ∧ i.needsSeed = true ∧ s.seeded = false)
      ∧ (r.code = .empty ↔ i.wellFormed s.params = true ∧ s.seeded = true ∧ s.cvalid = false
          ∧ (i.op = 0x31#8 ∨ i.op = 0x32#8))
      ∧ (r.code ≠ .ok → r.data = 0#64 ∧ t = { s with flight := none, rsp := some r }))
    ∧ (∀ (w : CommandWord) (s : State) (e : DecodeError), decode w = .error e →
        execWord w s = .next { s with flight := none, rsp := some ⟨.illegal, 0#64⟩ })
    ∧ Code.ok.bits = 0x0#4 ∧ Code.illegal.bits = 0x1#4 ∧ Code.unseeded.bits = 0x2#4 ∧ Code.empty.bits = 0x3#4
    ∧ (∀ c : Code, c.bits.toNat ≤ 3)
    ∧ (∀ r : Response, r.word.extractLsb' 64 4 = r.code.bits ∧ r.word.extractLsb' 0 64 = r.data)

/-- Rule R202 (decisions D12, D26): a response with a code other than `OK` carries data 0 and leaves every register and
flag as it was. -/
def Obligations.RefusedCommandChangesNothing : Prop :=
  ∀ (w : CommandWord) (s t : State) (r : Response), execWord w s = .next t → t.rsp = some r → r.code ≠ .ok →
    r.data = 0#64 ∧ t = { s with flight := none, rsp := some r }

/-- 60_exceptions.md section 5 (the spec's derived classification): every command word in every state has a next state
and a response, and every step has a next state: no fault, no refusal, never stuck. -/
def Obligations.EveryStepHasANextState : Prop :=
  (∀ (w : CommandWord) (s : State), ∃ t r, execWord w s = .next t ∧ t.rsp = some r ∧ t.flight = none)
    ∧ (∀ s : State, ∃ t, step s = .next t)
    ∧ (∀ (k : Nat) (s : State), ∃ o, observe k s = some o)

/-- 10_state.md section 8 (the table the spec marks as derived), as the frame of every command: in the next state of
each, every register and flag it does not write is as before. Nothing is said of the content of `CACHE` after the three
commands that leave it unspecified. -/
def Obligations.WhoWritesWhat : Prop :=
  ∀ (i : Instr) (s t : State), exec i s = .next t →
    t.params = s.params ∧ t.pins = s.pins ∧ t.latencies = s.latencies ∧ t.flight = none
      ∧ (match i with
        | .nop _ | .status _ | .getseed _ | .getiseed _ | .getctr _ | .getint _ | .getlong _ | .cpeek _ =>
          t.pseed = s.pseed ∧ t.iseed = s.iseed ∧ t.ctr = s.ctr ∧ t.cache = s.cache ∧ t.cvalid = s.cvalid
            ∧ t.seeded = s.seeded ∧ t.draws = s.draws
        | .setctr _ | .nextint _ | .nextlong _ =>
          t.pseed = s.pseed ∧ t.iseed = s.iseed ∧ t.cache = s.cache ∧ t.cvalid = s.cvalid
            ∧ t.seeded = s.seeded ∧ t.draws = s.draws
        | .reset _ => t.pseed = s.pseed ∧ t.iseed = s.iseed ∧ t.seeded = s.seeded
        | .setseed _ => True
        | .cput _ =>
          t.pseed = s.pseed ∧ t.iseed = s.iseed ∧ t.ctr = s.ctr ∧ t.seeded = s.seeded ∧ t.draws = s.draws
        | .ctake _ => t.pseed = s.pseed ∧ t.iseed = s.iseed ∧ t.ctr = s.ctr ∧ t.seeded = s.seeded)

/-- Rule R21: `PSEED` is written only by `SETSEED`, with its operand, and read only by `GETSEED`: with another value of
it every other command gives the same response and the same next state, `PSEED` apart. -/
def Obligations.PublicSeedIsReadOnlyByGetseed : Prop :=
  (∀ (i : Instr) (s t : State), exec i s = .next t → t.pseed = s.pseed ∨ ∃ raw, i = .setseed raw ∧ t.pseed = raw)
    ∧ (∀ (i : Instr) (s : State) (v : Word), (∀ a, i ≠ .getseed a) → ∃ t u,
      exec i s = .next t ∧ exec i { s with pseed := v } = .next u ∧ u.rsp = t.rsp
        ∧ u = { t with pseed := u.pseed } ∧ (isSetseed i = true → u.pseed = t.pseed))

/-- Rule R22 (decision D17): `ISEED` is written only by `SETSEED`, with the conditioned operand, and read only by the
four generation commands and `GETISEED`. -/
def Obligations.InternalSeedIsNeverExposedForMutation : Prop :=
  (∀ (i : Instr) (s t : State), exec i s = .next t →
      t.iseed = s.iseed ∨ ∃ raw, i = .setseed raw ∧ t.iseed = condition s.params.kCond raw)
    ∧ (∀ (i : Instr) (s : State) (v : Word),
      (∀ a, i ≠ .getiseed a ∧ i ≠ .nextint a ∧ i ≠ .nextlong a ∧ i ≠ .getint a ∧ i ≠ .getlong a) → ∃ t u,
      exec i s = .next t ∧ exec i { s with iseed := v } = .next u ∧ u.rsp = t.rsp
        ∧ u = { t with iseed := u.iseed } ∧ (isSetseed i = true → u.iseed = t.iseed))

/-- Rule R23: what each of the five writers puts in `CTR`, that no other command writes it, and that it is read by
`NEXTINT`, `NEXTLONG` and `GETCTR` only. -/
def Obligations.CounterReadersAndWriters : Prop :=
  (∀ (i : Instr) (s t : State), exec i s = .next t → s.seeded = true →
      t.ctr = match i with
        | .setseed _ | .reset _ => s.params.ctrInit
        | .setctr c => c
        | .nextint _ | .nextlong _ => s.ctr + 1#64
        | .nop _ | .status _ | .getseed _ | .getiseed _ | .getctr _ | .getint _ | .getlong _ | .cput _ | .ctake _
        | .cpeek _ => s.ctr)
    ∧ (∀ (i : Instr) (s : State) (v : Word), (∀ a, i ≠ .nextint a ∧ i ≠ .nextlong a ∧ i ≠ .getctr a) → ∃ t u,
      exec i s = .next t ∧ exec i { s with ctr := v } = .next u ∧ u.rsp = t.rsp ∧ u = { t with ctr := u.ctr })

/-- Rule R125 (decision D9): the increment is modulo 2^64, over the top of the unsigned range to 0 and over the top of
the signed range to the most negative value, with no code and no flag for either; after a multiple of 2^64 draws of one
seed the counter is where it was, so the stream repeats. -/
def Obligations.CounterIncrementWraps : Prop :=
  (∀ (i : Instr) (s : State) (a : Word), i = .nextint a ∨ i = .nextlong a → s.seeded = true → ∃ t d,
      exec i s = .next t ∧ t.ctr.toNat = (s.ctr.toNat + 1) % 2 ^ 64
        ∧ t.rsp = some ⟨.ok, d⟩ ∧ t.cvalid = s.cvalid ∧ t.seeded = s.seeded
        ∧ (s.ctr = 0xFFFFFFFFFFFFFFFF#64 → t.ctr = 0#64)
        ∧ (s.ctr = 0x7FFFFFFFFFFFFFFF#64 → t.ctr = 0x8000000000000000#64 ∧ t.ctr.toInt = -(2 ^ 63)))
    ∧ (∀ (draws : List Instr) (s : State), (∀ i ∈ draws, ∃ a, i = .nextint a ∨ i = .nextlong a) → s.seeded = true →
      ∃ rs t, askAll draws s = some (rs, t) ∧ t.iseed = s.iseed ∧ t.seeded = true
        ∧ t.ctr.toNat = (s.ctr.toNat + draws.length) % 2 ^ 64
        ∧ (draws.length % 2 ^ 64 = 0 → t.ctr = s.ctr))

/-- 44_cache_commands.md, the lifetime of the cached sample (the spec's derived rule): `CVALID` after each command as
the rule lists it, and the payload a command finds while `CVALID = 0` reaches no response. -/
def Obligations.CachedSampleLifetime : Prop :=
  (∀ (i : Instr) (s t : State), exec i s = .next t → s.seeded = true → s.params.hasCache = true →
      t.cvalid = match i with
        | .setseed _ | .reset _ | .ctake _ => false
        | .cput _ => true
        | .nop _ | .status _ | .getseed _ | .getiseed _ | .setctr _ | .getctr _ | .nextint _ | .nextlong _
        | .getint _ | .getlong _ | .cpeek _ => s.cvalid)
    ∧ (∀ p : Params, (State.resetOf p).cvalid = false)
    ∧ (∀ s : State, s.hardReset.cvalid = false)
    ∧ (∀ (i : Instr) (s : State) (v : Word), s.cvalid = false → ∃ t u,
      exec i s = .next t ∧ exec i { s with cache := v } = .next u ∧ u.rsp = t.rsp ∧ u = { t with cache := u.cache })

/-! ## Sequences of commands -/

/-- 42_generation_commands.md, the equivalence the spec derives (KR property 2): a point query answers what the
sequential command answers after `SETCTR` to its probe, in every state, seeded or not, and leaves every register as it
was. -/
def Obligations.PointQueryMatchesSequentialDraw : Prop :=
  (∀ (p a : Word) (s t : State), exec (.setctr p) s = .next t →
      (ask (.getint p) s).map (·.1) = (ask (.nextint a) t).map (·.1)
        ∧ (ask (.getlong p) s).map (·.1) = (ask (.nextlong a) t).map (·.1))
    ∧ (∀ (p : Word) (s t : State), exec (.getint p) s = .next t ∨ exec (.getlong p) s = .next t →
        t.quiet = s.quiet)

/-- 20_memory.md section 6: point queries from several hosts return the same values in any interleaving with other
commands, as long as no `SETSEED` falls among them. -/
def Obligations.PointQueriesShareTheStream : Prop :=
  ∀ (cmds : List Instr) (s t : State) (rs : List Response) (p : Word),
    (∀ i ∈ cmds, isSetseed i = false) → askAll cmds s = some (rs, t) →
      (ask (.getint p) t).map (·.1) = (ask (.getint p) s).map (·.1)
        ∧ (ask (.getlong p) t).map (·.1) = (ask (.getlong p) s).map (·.1)

/-- 43_state_commands.md, `RESET` restarts the stream (the spec's derived rule; KR property 6): the state after
`SETSEED`, any commands but `SETSEED`, and `RESET` is the state right after `SETSEED`, and every command sequence then
gets the same responses from both. -/
def Obligations.ResetRestartsTheStream : Prop :=
  ∀ (raw a : Word) (cmds more : List Instr) (s s1 s2 : State) (r1 r2 : List Response),
    (∀ i ∈ cmds, isSetseed i = false) →
    askAll [.setseed raw] s = some (r1, s1) →
    askAll (.setseed raw :: cmds ++ [.reset a]) s = some (r2, s2) →
      SameState s1 s2 ∧ (askAll more s1).map (·.1) = (askAll more s2).map (·.1)

/-- 40_seed_conditioner.md, determinism (the spec's derived rule; KR property 1): after `SETSEED` with one raw seed two
instances with equal parameters are in the same state whatever their histories, and stay so with equal responses under
every command sequence. -/
def Obligations.SeedErasesHistory : Prop :=
  ∀ (raw : Word) (cmds : List Instr) (s t : State), s.params = t.params → ∃ rs u v,
    askAll (.setseed raw :: cmds) s = some (rs, u) ∧ askAll (.setseed raw :: cmds) t = some (rs, v) ∧ SameState u v

/-- 10_state.md section 7 (the equality of rule R31 and what the spec derives from it): two instances with the same
parameters in the same state give the same response and the same next state for every command word. -/
def Obligations.SameStateSameResponse : Prop :=
  ∀ (w : CommandWord) (s t : State), s.params = t.params → SameState s t → ∃ u v,
    execWord w s = .next u ∧ execWord w t = .next v ∧ u.rsp = v.rsp ∧ SameState u v

/-! ## The ports, the step and the invariant -/

/-- The step around a command, in the model's own terms: without reset, with no response pending and a command word in
its last cycle of flight, the step is the meaning of what the word decodes to, on the state whose pin sample is used
up; a word that decodes to nothing is answered `ILLEGAL`; before its last cycle the step only counts. The number of
cycles is the implementation's (log entry 7), and that the command reads and writes all state in its last cycle is the
model's inference (log entry 9, DEDUCED). -/
def Obligations.StepRunsTheDecodedCommand : Prop :=
  (∀ (s : State) (w : CommandWord) (i : Instr), s.edge.rst = false → s.rsp = none → s.flight = some ⟨w, 0⟩ →
      decode w = .ok i → step s = exec i { s with pins := s.pins.tail })
    ∧ (∀ (s : State) (w : CommandWord) (e : DecodeError), s.edge.rst = false → s.rsp = none →
      s.flight = some ⟨w, 0⟩ → decode w = .error e →
      step s = .next { s with pins := s.pins.tail, flight := none, rsp := some ⟨.illegal, 0#64⟩ })
    ∧ (∀ (s : State) (w : CommandWord) (n : Nat), s.edge.rst = false → s.rsp = none → s.flight = some ⟨w, n + 1⟩ →
      step s = .next { s with pins := s.pins.tail, flight := some ⟨w, n⟩ })

/-- 20_memory.md section 2, the handshake (decision D2): a command is accepted exactly when `cmd_valid` and `cmd_ready`
are both 1; from then until its response is delivered `cmd_ready` is 0; a response is held, with every register, until
it is delivered, and its delivery changes nothing else; a step without acceptance starts nothing. The model's own choices
in it: an edge uses up one pin sample (log entry 6, DESIGN CHOICE), and acceptance takes its number of edges from the head
of `latencies`, 0 where that is used up, and uses it up (log entry 7, DESIGN CHOICE). -/
def Obligations.HandshakeOneCommandAtATime : Prop :=
  (∀ (s : State) (w : CommandWord), s.accepted = some w ↔
      s.edge.cmdValid = true ∧ s.cmdReady = true ∧ s.edge.cmdWord = w)
    ∧ (∀ (s : State) (w : CommandWord), s.accepted = some w →
      step s = .next { s with pins := s.pins.tail, latencies := s.latencies.tail,
                              flight := some ⟨w, s.latencies.headD 0⟩ })
    ∧ (∀ (s : State), s.cmdReady = true → s.accepted = none → step s = .next { s with pins := s.pins.tail })
    ∧ (∀ s : State, s.flight.isSome = true ∨ s.rsp.isSome = true → s.cmdReady = false ∧ s.accepted = none)
    ∧ (∀ s : State, s.rspValid = true → s.edge.rspReady = false →
      step s = .next { s with pins := s.pins.tail } ∧ s.delivered = none)
    ∧ (∀ s : State, s.rspValid = true → s.edge.rspReady = true →
      step s = .next { s with pins := s.pins.tail, rsp := none } ∧ s.delivered = s.rsp)

/-- 70_reset_and_hazards.md section 1 (rule R220, decisions D14, D19): with `rst = 1` at the edge the block enters the reset state, the command in flight
and the undelivered response are gone, `SEEDED` and `CVALID` are 0, nothing is accepted and nothing is delivered, and no response
to any commands can tell what the other registers hold. That a reset edge keeps the parameters and the coming pins is the
model's choice (log entry 13, DESIGN CHOICE). -/
def Obligations.HardwareResetAbandonsEverything : Prop :=
  ∀ s : State, s.edge.rst = true →
    s.cmdReady = false ∧ s.rspValid = false ∧ s.accepted = none ∧ s.delivered = none
      ∧ ∃ t, step s = .next t ∧ t.seeded = false ∧ t.cvalid = false ∧ t.flight = none ∧ t.rsp = none
        ∧ t.params = s.params ∧ t.pins = s.pins.tail
        ∧ (∀ (cmds : List Instr) (p i c k : Word),
          (askAll cmds { t with pseed := p, iseed := i, ctr := c, cache := k }).map (·.1) = (askAll cmds t).map (·.1))

/-- 10_state.md section 9: the reset state's flags, status word and ports as the table gives them, for every instance,
and `UNSEEDED` with data 0 from every command that needs a seed. The values the model names for the four unspecified
registers (log entry 4) are not stated. -/
def Obligations.StateAfterHardwareReset : Prop :=
  ∀ p : Params,
    (State.resetOf p).params = p ∧ (State.resetOf p).seeded = false ∧ (State.resetOf p).cvalid = false
      ∧ (State.resetOf p).statusWord = (if p.hasCache then 0x104#64 else 0x100#64)
      ∧ (State.resetOf p).flight = none ∧ (State.resetOf p).rsp = none ∧ (State.resetOf p).cmdReady = true
      ∧ (∀ i : Instr, i.needsSeed = true → i.wellFormed p = true →
        (ask i (State.resetOf p)).map (·.1) = some ⟨.unseeded, 0#64⟩)

/-- 10_state.md section 9, the last paragraph: while unseeded no response can tell what the four unspecified registers
hold. Whatever values they have, every command sequence gets the same responses. So nothing rests on log entry 4. -/
def Obligations.UnseededRegistersAreUnobservable : Prop :=
  ∀ (cmds : List Instr) (s : State) (p i c k : Word), s.seeded = false → s.cvalid = false →
    (askAll cmds { s with pseed := p, iseed := i, ctr := c, cache := k }).map (·.1) = (askAll cmds s).map (·.1)

/-- 20_memory.md sections 2 and 4 (decisions D1, D19, D22): over any number of edges without reset, whatever the pins
and whatever the latencies, the delivered responses and the registers are those of the functional model on the
accepted command words in their order; a response still undelivered is the last one's; and a command still in flight
has had no effect on any register, which is the model's inference (log entry 9, DEDUCED): a command takes effect at
the one edge that completes it. -/
def Obligations.PortsRefineTheFunctionalModel : Prop :=
  ∀ (k : Nat) (s : State), s.flight = none → s.rsp = none → (∀ p ∈ s.pins.take k, p.rst = false) → ∃ o,
    observe k s = some o
      ∧ (match o.state.flight with
        | none =>
          transactAll o.accepted s.quiet = some (o.delivered ++ o.state.rsp.toList, o.state.quiet)
        | some f =>
          o.state.rsp = none ∧ ∃ ws, o.accepted = ws ++ [f.word]
            ∧ transactAll ws s.quiet = some (o.delivered, o.state.quiet))

/-- 70_reset_and_hazards.md section 4 (decision D22): an accepted command completes after the number of edges its
implementation takes (log entry 7), unless reset comes first, and its response is then delivered at the first edge with
`rsp_ready = 1`, after which the block is ready for the next command. -/
def Obligations.AcceptedCommandCompletes : Prop :=
  (∀ (n : Nat) (s : State) (w : CommandWord), s.flight = some ⟨w, n⟩ → s.rsp = none →
      (∀ p ∈ s.pins.take (n + 1), p.rst = false) → ∃ o r,
      observe (n + 1) s = some o ∧ o.state.rsp = some r ∧ o.state.flight = none
        ∧ o.accepted = [] ∧ o.delivered = [] ∧ o.state.pins = s.pins.drop (n + 1))
    ∧ (∀ (n : Nat) (s : State) (r : Response), s.rsp = some r → s.flight = none →
      (∀ p ∈ s.pins.take n, p.rst = false ∧ p.rspReady = false) →
      (∀ q, s.pins[n]? = some q → q.rst = false ∧ q.rspReady = true) → n < s.pins.length → ∃ o,
      observe (n + 1) s = some o ∧ o.delivered = [r] ∧ o.accepted = []
        ∧ o.state.rsp = none ∧ o.state.flight = none ∧ o.state.quiet = s.quiet)

/-- The invariant (rules R26, R32, R42, R68 and R149) is kept by every step, from every state that meets it, reset
edges included. -/
def Obligations.StepKeepsTheInvariant : Prop :=
  ∀ s t : State, s.inv → step s = .next t → t.inv

/-- The invariant holds in the reset state of every instance. -/
def Obligations.ResetMeetsTheInvariant : Prop :=
  (∀ p : Params, (State.resetOf p).inv) ∧ State.reset.inv

/-- 40_seed_conditioner.md section 2 (derived item 3) carried to the machine: in every state that meets the invariant a
seeded block's internal seed has 30 to 34 one bits. -/
def Obligations.SeededInternalSeedIsBalanced : Prop :=
  ∀ s : State, s.inv → s.seeded = true → 30 ≤ popcount s.iseed ∧ popcount s.iseed ≤ 34

/-- 70_reset_and_hazards.md section 2, item 1: no step changes a parameter. -/
def Obligations.ParametersAreFixed : Prop :=
  ∀ s t : State, step s = .next t → t.params = s.params

/-! ## The host layer -/

/-- 48_host_software_layer.md section 6 (KR property 10; conflict C4): the clone is in the same state as the original,
which the recipe leaves as it was, and the host's comparison says so. -/
def Obligations.CloneIsInTheSameState : Prop :=
  ∀ a b : State, a.inv → a.seeded = true → b.params = a.params → ∃ a' b',
    clone a b = some (a', b') ∧ SameState a a' ∧ SameState a' b' ∧ equals a' b' = true

/-- 48_host_software_layer.md sections 5 and 7 (KR properties 4 and 5): a sample lies in its range, at both widths; an
empty range is `InvalidArgument` and a one-argument call with a positive bound is not. -/
def Obligations.RangeSamplesLieInRange : Prop :=
  (∀ (max : BitVec 32) (tries : Nat) (s t : State) (v : BitVec 32), nextIntRange max tries s = .value v t →
      0 ≤ v.toInt ∧ v.toInt < max.toInt)
    ∧ (∀ (min max : BitVec 32) (tries : Nat) (s t : State) (v : BitVec 32),
      nextIntRangeFrom min max tries s = .value v t → min.toInt ≤ v.toInt ∧ v.toInt < max.toInt)
    ∧ (∀ (max : BitVec 64) (tries : Nat) (s t : State) (v : BitVec 64), nextLongRange max tries s = .value v t →
      0 ≤ v.toInt ∧ v.toInt < max.toInt)
    ∧ (∀ (min max : BitVec 64) (tries : Nat) (s t : State) (v : BitVec 64),
      nextLongRangeFrom min max tries s = .value v t → min.toInt ≤ v.toInt ∧ v.toInt < max.toInt)
    ∧ (∀ (max : BitVec 32) (tries : Nat) (s : State), nextIntRange max tries s = .invalidArgument ↔ max.toInt ≤ 0)
    ∧ (∀ (min max : BitVec 32) (tries : Nat) (s : State), max.toInt ≤ min.toInt →
      nextIntRangeFrom min max tries s = .invalidArgument)
    ∧ (∀ (max : BitVec 64) (tries : Nat) (s : State), nextLongRange max tries s = .invalidArgument ↔ max.toInt ≤ 0)
    ∧ (∀ (min max : BitVec 64) (tries : Nat) (s : State), max.toInt ≤ min.toInt →
      nextLongRangeFrom min max tries s = .invalidArgument)

/-- 48_host_software_layer.md section 4 (KR property 8, in the spec's reading of N12): on a seeded block the buffer is
filled from the back, each chunk the low bytes of the next word, least significant first, and `ceil(n / 8)` counter
positions are used. -/
def Obligations.NextBytesFillsBackToFront : Prop :=
  ∀ (n : Nat) (s : State), s.seeded = true → ∃ buf t,
    nextBytes n s = some (buf, t) ∧ buf.length = n
      ∧ t.ctr = s.ctr + BitVec.ofNat 64 ((n + 7) / 8) ∧ t.iseed = s.iseed ∧ t.seeded = true
      ∧ (∀ k : Nat, k < n →
        buf[n - 1 - k]? = some ((mix64 s.iseed (s.ctr + BitVec.ofNat 64 (k / 8))).extractLsb' (8 * (k % 8)) 8))
end

