-- ==== Sys2Proof/Laws/Bits.lean ====
section
/-! SUPPORT. The bit-field primitives of rule R9 bit by bit: population count, rotation, setting bit 0, and the mixer's
round and high half in integers. The conditioner's and the mixer's proofs cite these instead of unfolding. -/

namespace Sys2Proof.Machine

/-- The count of the low bits as a sum. -/
theorem onesBelow_eq (a : Word) (n : Nat) : onesBelow a n = ∑ i ∈ Finset.range n, (a.getLsbD i).toNat := by
  induction n with
  | zero => rfl
  | succ n ih => rw [onesBelow, ih, Finset.sum_range_succ]

/-- The population count as a sum over the bit positions. -/
theorem popcount_eq (a : Word) : popcount a = ∑ i ∈ Finset.range 64, (a.getLsbD i).toNat := onesBelow_eq a 64

/-- A population count is at most 64. -/
theorem popcount_le (a : Word) : popcount a ≤ 64 := by
  rw [popcount_eq]
  calc _ ≤ ∑ i ∈ Finset.range 64, 1 := Finset.sum_le_sum fun i _ => Bool.toNat_le _
    _ = 64 := by simp

/-- Bit `i` of a rotation right by `n` is bit `(i + n) mod 64` (rule R9). -/
theorem rotr_bit (p : Word) (n i : Nat) (h : i < 64) :
    (rotr p n).getLsbD i = p.getLsbD ((i + n) % 64) := by
  rw [rotr, BitVec.getLsbD_rotateRight]
  by_cases hc : i < 64 - n % 64
  · rw [decide_eq_true hc, cond_true]; congr 1; omega
  · rw [decide_eq_false hc, cond_false, decide_eq_true h, Bool.true_and]; congr 1; omega

/-- A rotation keeps the population count. -/
theorem popcount_rotr (p : Word) : popcount (rotr p Config.condRot) = popcount p := by
  rw [popcount_eq, popcount_eq]
  refine Finset.sum_nbij' (fun i => (i + 15) % 64) (fun i => (i + 49) % 64) ?_ ?_ ?_ ?_ ?_
  · intro i hi; simp; omega
  · intro i hi; simp; omega
  · intro i hi; simp at hi ⊢; omega
  · intro i hi; simp at hi ⊢; omega
  · intro i hi; simp at hi; rw [rotr_bit _ _ _ hi, Config.condRot]

/-- Every bit after bit 0 is set. -/
theorem withBit0_bit (q : Word) (b : Bool) (i : Nat) : (withBit0 q b).getLsbD i = if i = 0 then b else q.getLsbD i := by
  unfold withBit0
  by_cases h64 : i < 64
  · have hm : (1#64).getLsbD i = decide (i = 0) := by rw [BitVec.getLsbD_one]; simp
    cases b
    · rw [if_neg (by simp), BitVec.getLsbD_and, BitVec.getLsbD_not, hm, decide_eq_true h64]
      by_cases h : i = 0 <;> simp [h, -BitVec.getLsbD_eq_getElem]
    · rw [if_pos rfl, BitVec.getLsbD_or, hm]
      by_cases h : i = 0 <;> simp [h, -BitVec.getLsbD_eq_getElem]
  · have h0 : i ≠ 0 := by omega
    rw [if_neg h0, BitVec.getLsbD_of_ge _ _ (by omega), BitVec.getLsbD_of_ge _ _ (by omega)]

/-- The population count after bit 0 is set. -/
theorem popcount_withBit0 (q : Word) (b : Bool) : popcount (withBit0 q b) + (q.getLsbD 0).toNat = popcount q + b.toNat := by
  rw [popcount_eq, popcount_eq, Finset.sum_range_succ', Finset.sum_range_succ' (fun i => (q.getLsbD i).toNat)]
  simp [withBit0_bit, -BitVec.getLsbD_eq_getElem]; omega

/-- A word and its complement have 64 ones together. -/
theorem popcount_not (p : Word) : popcount (~~~p) + popcount p = 64 := by
  rw [popcount_eq, popcount_eq, ← Finset.sum_add_distrib]
  rw [Finset.sum_congr rfl (g := fun _ => 1)]
  · simp
  · intro i hi; simp at hi; rw [BitVec.getLsbD_not, decide_eq_true hi]; cases p.getLsbD i <;> rfl

/-- The round of the mixer in integers. -/
theorem mixRound_toNat (x a : Word) : (mixRound x a).toNat = (x.toNat / 2^32 * x.toNat + a.toNat) % 2^64 := by
  simp [mixRound, BitVec.toNat_add, BitVec.toNat_mul, Nat.shiftRight_eq_div_pow, Nat.add_mod, Nat.mul_mod]

/-- The high half in integers. -/
theorem high32_toNat (x : Word) : (high32 x).toNat = x.toNat / 2^32 := by
  have := x.isLt
  simp [high32, BitVec.extractLsb'_toNat, Nat.shiftRight_eq_div_pow]
  omega

/-- Zero extension keeps the value. -/
theorem zext64_toNat (v : Half) : (zext64 v).toNat = v.toNat := by
  have := v.isLt
  simp [zext64]; omega

/-- Outside the threshold `BALANCE` is the walk. -/
theorem balance_of_far {p : Word} (h : Config.condThreshold < (deviation p).natAbs) :
    balance p = walk (decide (deviation p < 0)) Config.condMaxRot (deviation p).natAbs p := by
  rw [balance, if_neg (Nat.not_le.2 h)]

/-- Within the threshold `BALANCE` is the identity. -/
theorem balance_of_near {p : Word} (h : (deviation p).natAbs ≤ Config.condThreshold) : balance p = p := by
  rw [balance, if_pos h]

end Sys2Proof.Machine
end

