-- ==== Sys2Proof/Laws/Decode.lean ====
section
/-! SUPPORT. The fields of a command word, and the opcode map as a list: what the decoder's lookup answers. -/

namespace Sys2Proof

/-- The opcode field of `op` over `arg` is `op`. -/
theorem opField_append (op : Opcode) (a : Word) : opField (op ++ a) = op := by
  unfold opField
  apply BitVec.eq_of_getLsbD_eq
  intro i hi
  rw [BitVec.getLsbD_extractLsb']
  simp only [hi, decide_true, Bool.true_and]
  erw [BitVec.getLsbD_append]
  simp

/-- The operand field of `op` over `arg` is `arg`. -/
theorem argField_append (op : Opcode) (a : Word) : argField (op ++ a) = a := by
  unfold argField
  apply BitVec.eq_of_getLsbD_eq
  intro i hi
  rw [BitVec.getLsbD_extractLsb']
  simp only [hi, decide_true, Bool.true_and]
  erw [BitVec.getLsbD_append]
  simp [hi]

/-- A command word is its two fields. -/
theorem append_fields (w : CommandWord) : opField w ++ argField w = w := by
  unfold opField argField
  apply BitVec.eq_of_getLsbD_eq
  intro i hi
  erw [BitVec.getLsbD_append]
  simp only [BitVec.getLsbD_extractLsb']
  split
  · simp_all
  · have : i - 64 < 8 := by omega
    have h2 : 64 + (i - 64) = i := by omega
    simp [this, h2]

/-- What a lookup answers stands in the list. -/
theorem lookup_mem {α β : Type} [BEq α] [LawfulBEq α] {k : α} {v : β} : ∀ {l : List (α × β)}, l.lookup k = some v → (k, v) ∈ l
  | [], h => by simp at h
  | (a, b) :: l, h => by
    rw [List.lookup_cons] at h
    split at h
    · rename_i hk
      simp at hk; cases h; simp [hk]
    · exact List.mem_cons_of_mem _ (lookup_mem h)

/-- A key that no row has is not found. -/
theorem lookup_none {α β : Type} [BEq α] [LawfulBEq α] {k : α} : ∀ {l : List (α × β)}, (∀ p ∈ l, p.1 ≠ k) → l.lookup k = none
  | [], _ => rfl
  | (a, b) :: l, h => by
    rw [List.lookup_cons]
    have h1 : (k == a) = false := by simpa using fun e : k = a => h (a, b) (by simp) e.symm
    simp only [h1]
    exact lookup_none fun p hp => h p (List.mem_cons_of_mem _ hp)

/-- A row of the opcode map names a command with that opcode and that operand. -/
theorem opcodeMap_sound {op : Opcode} {f : Word → Instr} (h : (op, f) ∈ opcodeMap) (a : Word) : (f a).op = op ∧ (f a).arg = a := by
  simp only [opcodeMap, List.cons_append, List.nil_append, List.mem_cons, List.not_mem_nil, or_false, Prod.mk.injEq] at h
  rcases h with h|h|h|h|h|h|h|h|h|h|h|h|h|h|h <;> obtain ⟨rfl, rfl⟩ := h <;> exact ⟨rfl, rfl⟩

end Sys2Proof
end

