-- ==== Sys2Proof/Laws/State.lean ====
section
/-! SUPPORT. Beside the state: one lemma per field per named update, true by `rfl`, so that no later proof unfolds a
record update. `State.emptyCache` branches on `HAS_CACHE`; its lemmas follow the others. -/

namespace Sys2Proof.Machine

/-! ### `State.answer` -/

@[simp] theorem State.answer_params (s : State) (c : Code) (d : Word) : (s.answer c d).params = s.params := rfl
@[simp] theorem State.answer_pseed (s : State) (c : Code) (d : Word) : (s.answer c d).pseed = s.pseed := rfl
@[simp] theorem State.answer_iseed (s : State) (c : Code) (d : Word) : (s.answer c d).iseed = s.iseed := rfl
@[simp] theorem State.answer_ctr (s : State) (c : Code) (d : Word) : (s.answer c d).ctr = s.ctr := rfl
@[simp] theorem State.answer_cache (s : State) (c : Code) (d : Word) : (s.answer c d).cache = s.cache := rfl
@[simp] theorem State.answer_cvalid (s : State) (c : Code) (d : Word) : (s.answer c d).cvalid = s.cvalid := rfl
@[simp] theorem State.answer_seeded (s : State) (c : Code) (d : Word) : (s.answer c d).seeded = s.seeded := rfl
@[simp] theorem State.answer_flight (s : State) (c : Code) (d : Word) : (s.answer c d).flight = none := rfl
@[simp] theorem State.answer_rsp (s : State) (c : Code) (d : Word) : (s.answer c d).rsp = some ⟨c, d⟩ := rfl
@[simp] theorem State.answer_pins (s : State) (c : Code) (d : Word) : (s.answer c d).pins = s.pins := rfl
@[simp] theorem State.answer_latencies (s : State) (c : Code) (d : Word) : (s.answer c d).latencies = s.latencies := rfl
@[simp] theorem State.answer_draws (s : State) (c : Code) (d : Word) : (s.answer c d).draws = s.draws := rfl

/-! ### `State.setCtr` -/

@[simp] theorem State.setCtr_params (s : State) (c : Word) : (s.setCtr c).params = s.params := rfl
@[simp] theorem State.setCtr_pseed (s : State) (c : Word) : (s.setCtr c).pseed = s.pseed := rfl
@[simp] theorem State.setCtr_iseed (s : State) (c : Word) : (s.setCtr c).iseed = s.iseed := rfl
@[simp] theorem State.setCtr_ctr (s : State) (c : Word) : (s.setCtr c).ctr = c := rfl
@[simp] theorem State.setCtr_cache (s : State) (c : Word) : (s.setCtr c).cache = s.cache := rfl
@[simp] theorem State.setCtr_cvalid (s : State) (c : Word) : (s.setCtr c).cvalid = s.cvalid := rfl
@[simp] theorem State.setCtr_seeded (s : State) (c : Word) : (s.setCtr c).seeded = s.seeded := rfl
@[simp] theorem State.setCtr_flight (s : State) (c : Word) : (s.setCtr c).flight = s.flight := rfl
@[simp] theorem State.setCtr_rsp (s : State) (c : Word) : (s.setCtr c).rsp = s.rsp := rfl
@[simp] theorem State.setCtr_pins (s : State) (c : Word) : (s.setCtr c).pins = s.pins := rfl
@[simp] theorem State.setCtr_latencies (s : State) (c : Word) : (s.setCtr c).latencies = s.latencies := rfl
@[simp] theorem State.setCtr_draws (s : State) (c : Word) : (s.setCtr c).draws = s.draws := rfl

/-! ### `State.advanceCtr` -/

@[simp] theorem State.advanceCtr_params (s : State) : (s.advanceCtr).params = s.params := rfl
@[simp] theorem State.advanceCtr_pseed (s : State) : (s.advanceCtr).pseed = s.pseed := rfl
@[simp] theorem State.advanceCtr_iseed (s : State) : (s.advanceCtr).iseed = s.iseed := rfl
@[simp] theorem State.advanceCtr_ctr (s : State) : (s.advanceCtr).ctr = s.ctr + 1#64 := rfl
@[simp] theorem State.advanceCtr_cache (s : State) : (s.advanceCtr).cache = s.cache := rfl
@[simp] theorem State.advanceCtr_cvalid (s : State) : (s.advanceCtr).cvalid = s.cvalid := rfl
@[simp] theorem State.advanceCtr_seeded (s : State) : (s.advanceCtr).seeded = s.seeded := rfl
@[simp] theorem State.advanceCtr_flight (s : State) : (s.advanceCtr).flight = s.flight := rfl
@[simp] theorem State.advanceCtr_rsp (s : State) : (s.advanceCtr).rsp = s.rsp := rfl
@[simp] theorem State.advanceCtr_pins (s : State) : (s.advanceCtr).pins = s.pins := rfl
@[simp] theorem State.advanceCtr_latencies (s : State) : (s.advanceCtr).latencies = s.latencies := rfl
@[simp] theorem State.advanceCtr_draws (s : State) : (s.advanceCtr).draws = s.draws := rfl

/-! ### `State.putCache` -/

@[simp] theorem State.putCache_params (s : State) (v : Word) : (s.putCache v).params = s.params := rfl
@[simp] theorem State.putCache_pseed (s : State) (v : Word) : (s.putCache v).pseed = s.pseed := rfl
@[simp] theorem State.putCache_iseed (s : State) (v : Word) : (s.putCache v).iseed = s.iseed := rfl
@[simp] theorem State.putCache_ctr (s : State) (v : Word) : (s.putCache v).ctr = s.ctr := rfl
@[simp] theorem State.putCache_cache (s : State) (v : Word) : (s.putCache v).cache = v := rfl
@[simp] theorem State.putCache_cvalid (s : State) (v : Word) : (s.putCache v).cvalid = true := rfl
@[simp] theorem State.putCache_seeded (s : State) (v : Word) : (s.putCache v).seeded = s.seeded := rfl
@[simp] theorem State.putCache_flight (s : State) (v : Word) : (s.putCache v).flight = s.flight := rfl
@[simp] theorem State.putCache_rsp (s : State) (v : Word) : (s.putCache v).rsp = s.rsp := rfl
@[simp] theorem State.putCache_pins (s : State) (v : Word) : (s.putCache v).pins = s.pins := rfl
@[simp] theorem State.putCache_latencies (s : State) (v : Word) : (s.putCache v).latencies = s.latencies := rfl
@[simp] theorem State.putCache_draws (s : State) (v : Word) : (s.putCache v).draws = s.draws := rfl

/-! ### `State.seedWith` -/

@[simp] theorem State.seedWith_params (s : State) (raw : Word) : (s.seedWith raw).params = s.params := rfl
@[simp] theorem State.seedWith_pseed (s : State) (raw : Word) : (s.seedWith raw).pseed = raw := rfl
@[simp] theorem State.seedWith_iseed (s : State) (raw : Word) : (s.seedWith raw).iseed = condition s.params.kCond raw := rfl
@[simp] theorem State.seedWith_ctr (s : State) (raw : Word) : (s.seedWith raw).ctr = s.params.ctrInit := rfl
@[simp] theorem State.seedWith_cache (s : State) (raw : Word) : (s.seedWith raw).cache = s.cache := rfl
@[simp] theorem State.seedWith_cvalid (s : State) (raw : Word) : (s.seedWith raw).cvalid = s.cvalid := rfl
@[simp] theorem State.seedWith_seeded (s : State) (raw : Word) : (s.seedWith raw).seeded = true := rfl
@[simp] theorem State.seedWith_flight (s : State) (raw : Word) : (s.seedWith raw).flight = s.flight := rfl
@[simp] theorem State.seedWith_rsp (s : State) (raw : Word) : (s.seedWith raw).rsp = s.rsp := rfl
@[simp] theorem State.seedWith_pins (s : State) (raw : Word) : (s.seedWith raw).pins = s.pins := rfl
@[simp] theorem State.seedWith_latencies (s : State) (raw : Word) : (s.seedWith raw).latencies = s.latencies := rfl
@[simp] theorem State.seedWith_draws (s : State) (raw : Word) : (s.seedWith raw).draws = s.draws := rfl

/-! ### `State.pastEdge` -/

@[simp] theorem State.pastEdge_params (s : State) : (s.pastEdge).params = s.params := rfl
@[simp] theorem State.pastEdge_pseed (s : State) : (s.pastEdge).pseed = s.pseed := rfl
@[simp] theorem State.pastEdge_iseed (s : State) : (s.pastEdge).iseed = s.iseed := rfl
@[simp] theorem State.pastEdge_ctr (s : State) : (s.pastEdge).ctr = s.ctr := rfl
@[simp] theorem State.pastEdge_cache (s : State) : (s.pastEdge).cache = s.cache := rfl
@[simp] theorem State.pastEdge_cvalid (s : State) : (s.pastEdge).cvalid = s.cvalid := rfl
@[simp] theorem State.pastEdge_seeded (s : State) : (s.pastEdge).seeded = s.seeded := rfl
@[simp] theorem State.pastEdge_flight (s : State) : (s.pastEdge).flight = s.flight := rfl
@[simp] theorem State.pastEdge_rsp (s : State) : (s.pastEdge).rsp = s.rsp := rfl
@[simp] theorem State.pastEdge_pins (s : State) : (s.pastEdge).pins = s.pins.tail := rfl
@[simp] theorem State.pastEdge_latencies (s : State) : (s.pastEdge).latencies = s.latencies := rfl
@[simp] theorem State.pastEdge_draws (s : State) : (s.pastEdge).draws = s.draws := rfl

/-! ### `State.accept` -/

@[simp] theorem State.accept_params (s : State) (w : CommandWord) : (s.accept w).params = s.params := rfl
@[simp] theorem State.accept_pseed (s : State) (w : CommandWord) : (s.accept w).pseed = s.pseed := rfl
@[simp] theorem State.accept_iseed (s : State) (w : CommandWord) : (s.accept w).iseed = s.iseed := rfl
@[simp] theorem State.accept_ctr (s : State) (w : CommandWord) : (s.accept w).ctr = s.ctr := rfl
@[simp] theorem State.accept_cache (s : State) (w : CommandWord) : (s.accept w).cache = s.cache := rfl
@[simp] theorem State.accept_cvalid (s : State) (w : CommandWord) : (s.accept w).cvalid = s.cvalid := rfl
@[simp] theorem State.accept_seeded (s : State) (w : CommandWord) : (s.accept w).seeded = s.seeded := rfl
@[simp] theorem State.accept_flight (s : State) (w : CommandWord) : (s.accept w).flight = some ⟨w, s.latencies.headD 0⟩ := rfl
@[simp] theorem State.accept_rsp (s : State) (w : CommandWord) : (s.accept w).rsp = s.rsp := rfl
@[simp] theorem State.accept_pins (s : State) (w : CommandWord) : (s.accept w).pins = s.pins := rfl
@[simp] theorem State.accept_latencies (s : State) (w : CommandWord) : (s.accept w).latencies = s.latencies.tail := rfl
@[simp] theorem State.accept_draws (s : State) (w : CommandWord) : (s.accept w).draws = s.draws := rfl

/-! ### `State.work` -/

@[simp] theorem State.work_params (s : State) (f : Flight) : (s.work f).params = s.params := rfl
@[simp] theorem State.work_pseed (s : State) (f : Flight) : (s.work f).pseed = s.pseed := rfl
@[simp] theorem State.work_iseed (s : State) (f : Flight) : (s.work f).iseed = s.iseed := rfl
@[simp] theorem State.work_ctr (s : State) (f : Flight) : (s.work f).ctr = s.ctr := rfl
@[simp] theorem State.work_cache (s : State) (f : Flight) : (s.work f).cache = s.cache := rfl
@[simp] theorem State.work_cvalid (s : State) (f : Flight) : (s.work f).cvalid = s.cvalid := rfl
@[simp] theorem State.work_seeded (s : State) (f : Flight) : (s.work f).seeded = s.seeded := rfl
@[simp] theorem State.work_flight (s : State) (f : Flight) : (s.work f).flight = some ⟨f.word, f.left - 1⟩ := rfl
@[simp] theorem State.work_rsp (s : State) (f : Flight) : (s.work f).rsp = s.rsp := rfl
@[simp] theorem State.work_pins (s : State) (f : Flight) : (s.work f).pins = s.pins := rfl
@[simp] theorem State.work_latencies (s : State) (f : Flight) : (s.work f).latencies = s.latencies := rfl
@[simp] theorem State.work_draws (s : State) (f : Flight) : (s.work f).draws = s.draws := rfl

/-! ### `State.deliver` -/

@[simp] theorem State.deliver_params (s : State) : (s.deliver).params = s.params := rfl
@[simp] theorem State.deliver_pseed (s : State) : (s.deliver).pseed = s.pseed := rfl
@[simp] theorem State.deliver_iseed (s : State) : (s.deliver).iseed = s.iseed := rfl
@[simp] theorem State.deliver_ctr (s : State) : (s.deliver).ctr = s.ctr := rfl
@[simp] theorem State.deliver_cache (s : State) : (s.deliver).cache = s.cache := rfl
@[simp] theorem State.deliver_cvalid (s : State) : (s.deliver).cvalid = s.cvalid := rfl
@[simp] theorem State.deliver_seeded (s : State) : (s.deliver).seeded = s.seeded := rfl
@[simp] theorem State.deliver_flight (s : State) : (s.deliver).flight = s.flight := rfl
@[simp] theorem State.deliver_rsp (s : State) : (s.deliver).rsp = none := rfl
@[simp] theorem State.deliver_pins (s : State) : (s.deliver).pins = s.pins := rfl
@[simp] theorem State.deliver_latencies (s : State) : (s.deliver).latencies = s.latencies := rfl
@[simp] theorem State.deliver_draws (s : State) : (s.deliver).draws = s.draws := rfl

/-! ### `State.hardReset` -/

@[simp] theorem State.hardReset_params (s : State) : (s.hardReset).params = s.params := rfl
@[simp] theorem State.hardReset_pseed (s : State) : (s.hardReset).pseed = 0#64 := rfl
@[simp] theorem State.hardReset_iseed (s : State) : (s.hardReset).iseed = 0#64 := rfl
@[simp] theorem State.hardReset_ctr (s : State) : (s.hardReset).ctr = 0#64 := rfl
@[simp] theorem State.hardReset_cache (s : State) : (s.hardReset).cache = 0#64 := rfl
@[simp] theorem State.hardReset_cvalid (s : State) : (s.hardReset).cvalid = false := rfl
@[simp] theorem State.hardReset_seeded (s : State) : (s.hardReset).seeded = false := rfl
@[simp] theorem State.hardReset_flight (s : State) : (s.hardReset).flight = none := rfl
@[simp] theorem State.hardReset_rsp (s : State) : (s.hardReset).rsp = none := rfl
@[simp] theorem State.hardReset_pins (s : State) : (s.hardReset).pins = s.pins := rfl
@[simp] theorem State.hardReset_latencies (s : State) : (s.hardReset).latencies = s.latencies := rfl
@[simp] theorem State.hardReset_draws (s : State) : (s.hardReset).draws = s.draws := rfl

/-! ### `State.withFetchWord` -/

@[simp] theorem State.withFetchWord_params (s : State) (n w : Nat) : (s.withFetchWord n w).params = s.params := rfl
@[simp] theorem State.withFetchWord_pseed (s : State) (n w : Nat) : (s.withFetchWord n w).pseed = s.pseed := rfl
@[simp] theorem State.withFetchWord_iseed (s : State) (n w : Nat) : (s.withFetchWord n w).iseed = s.iseed := rfl
@[simp] theorem State.withFetchWord_ctr (s : State) (n w : Nat) : (s.withFetchWord n w).ctr = s.ctr := rfl
@[simp] theorem State.withFetchWord_cache (s : State) (n w : Nat) : (s.withFetchWord n w).cache = s.cache := rfl
@[simp] theorem State.withFetchWord_cvalid (s : State) (n w : Nat) : (s.withFetchWord n w).cvalid = s.cvalid := rfl
@[simp] theorem State.withFetchWord_seeded (s : State) (n w : Nat) : (s.withFetchWord n w).seeded = s.seeded := rfl
@[simp] theorem State.withFetchWord_flight (s : State) (n w : Nat) : (s.withFetchWord n w).flight = some ⟨tableWord n w, 0⟩ := rfl
@[simp] theorem State.withFetchWord_rsp (s : State) (n w : Nat) : (s.withFetchWord n w).rsp = none := rfl
@[simp] theorem State.withFetchWord_pins (s : State) (n w : Nat) : (s.withFetchWord n w).pins = Pins.idle :: s.pins := rfl
@[simp] theorem State.withFetchWord_latencies (s : State) (n w : Nat) : (s.withFetchWord n w).latencies = s.latencies := rfl
@[simp] theorem State.withFetchWord_draws (s : State) (n w : Nat) : (s.withFetchWord n w).draws = s.draws := rfl

/-! ### `State.resetOf` -/

@[simp] theorem State.resetOf_params (p : Params) : (State.resetOf p).params = p := rfl
@[simp] theorem State.resetOf_pseed (p : Params) : (State.resetOf p).pseed = 0#64 := rfl
@[simp] theorem State.resetOf_iseed (p : Params) : (State.resetOf p).iseed = 0#64 := rfl
@[simp] theorem State.resetOf_ctr (p : Params) : (State.resetOf p).ctr = 0#64 := rfl
@[simp] theorem State.resetOf_cache (p : Params) : (State.resetOf p).cache = 0#64 := rfl
@[simp] theorem State.resetOf_cvalid (p : Params) : (State.resetOf p).cvalid = false := rfl
@[simp] theorem State.resetOf_seeded (p : Params) : (State.resetOf p).seeded = false := rfl
@[simp] theorem State.resetOf_flight (p : Params) : (State.resetOf p).flight = none := rfl
@[simp] theorem State.resetOf_rsp (p : Params) : (State.resetOf p).rsp = none := rfl
@[simp] theorem State.resetOf_pins (p : Params) : (State.resetOf p).pins = [] := rfl
@[simp] theorem State.resetOf_latencies (p : Params) : (State.resetOf p).latencies = [] := rfl
@[simp] theorem State.resetOf_draws (p : Params) : (State.resetOf p).draws = 0 := rfl

/-! ### `State.quiet` -/

@[simp] theorem State.quiet_params (s : State) : s.quiet.params = s.params := rfl
@[simp] theorem State.quiet_pseed (s : State) : s.quiet.pseed = s.pseed := rfl
@[simp] theorem State.quiet_iseed (s : State) : s.quiet.iseed = s.iseed := rfl
@[simp] theorem State.quiet_ctr (s : State) : s.quiet.ctr = s.ctr := rfl
@[simp] theorem State.quiet_cache (s : State) : s.quiet.cache = s.cache := rfl
@[simp] theorem State.quiet_cvalid (s : State) : s.quiet.cvalid = s.cvalid := rfl
@[simp] theorem State.quiet_seeded (s : State) : s.quiet.seeded = s.seeded := rfl
@[simp] theorem State.quiet_flight (s : State) : s.quiet.flight = none := rfl
@[simp] theorem State.quiet_rsp (s : State) : s.quiet.rsp = none := rfl
@[simp] theorem State.quiet_pins (s : State) : s.quiet.pins = [] := rfl
@[simp] theorem State.quiet_latencies (s : State) : s.quiet.latencies = [] := rfl
@[simp] theorem State.quiet_draws (s : State) : s.quiet.draws = s.draws := rfl

/-! The port updates change nothing the functional model sees. -/

@[simp] theorem State.quiet_quiet (s : State) : s.quiet.quiet = s.quiet := rfl
@[simp] theorem State.pastEdge_quiet (s : State) : s.pastEdge.quiet = s.quiet := rfl
@[simp] theorem State.accept_quiet (s : State) (w : CommandWord) : (s.accept w).quiet = s.quiet := rfl
@[simp] theorem State.work_quiet (s : State) (f : Flight) : (s.work f).quiet = s.quiet := rfl
@[simp] theorem State.deliver_quiet (s : State) : s.deliver.quiet = s.quiet := rfl

/-! ### `State.emptyCache` -/

@[simp] theorem State.emptyCache_params (s : State) : s.emptyCache.params = s.params := by
  unfold State.emptyCache; split <;> rfl

@[simp] theorem State.emptyCache_pseed (s : State) : s.emptyCache.pseed = s.pseed := by
  unfold State.emptyCache; split <;> rfl

@[simp] theorem State.emptyCache_iseed (s : State) : s.emptyCache.iseed = s.iseed := by
  unfold State.emptyCache; split <;> rfl

@[simp] theorem State.emptyCache_ctr (s : State) : s.emptyCache.ctr = s.ctr := by
  unfold State.emptyCache; split <;> rfl

@[simp] theorem State.emptyCache_cvalid (s : State) : s.emptyCache.cvalid = false := by
  unfold State.emptyCache; split <;> rfl

@[simp] theorem State.emptyCache_seeded (s : State) : s.emptyCache.seeded = s.seeded := by
  unfold State.emptyCache; split <;> rfl

@[simp] theorem State.emptyCache_flight (s : State) : s.emptyCache.flight = s.flight := by
  unfold State.emptyCache; split <;> rfl

@[simp] theorem State.emptyCache_rsp (s : State) : s.emptyCache.rsp = s.rsp := by
  unfold State.emptyCache; split <;> rfl

@[simp] theorem State.emptyCache_pins (s : State) : s.emptyCache.pins = s.pins := by
  unfold State.emptyCache; split <;> rfl

@[simp] theorem State.emptyCache_latencies (s : State) : s.emptyCache.latencies = s.latencies := by
  unfold State.emptyCache; split <;> rfl

theorem State.emptyCache_cache (s : State) :
    s.emptyCache.cache = if s.params.hasCache then Config.unspecified s.draws else s.cache := by
  unfold State.emptyCache; split <;> rfl

theorem State.emptyCache_draws (s : State) :
    s.emptyCache.draws = if s.params.hasCache then s.draws + 1 else s.draws := by
  unfold State.emptyCache; split <;> rfl

end Sys2Proof.Machine
end

