-- ==== Sys2Proof/Laws/Ops.lean ====
section
/-! SUPPORT. One lemma per shared operation, saying once what it can answer; cited instead of unfolding it. -/

namespace Sys2Proof.Machine

theorem complete_eq_next {c : Code} {d : Word} {s t : State} :
    complete c d s = .next t ↔ t = s.answer c d := by
  constructor
  · intro h; injection h with h; exact h.symm
  · rintro rfl; rfl

theorem whenSeeded_of_seeded {s : State} (h : s.seeded = true) (run : Answer) : whenSeeded s run = run := by
  simp [whenSeeded, h]

theorem whenSeeded_of_unseeded {s : State} (h : s.seeded = false) (run : Answer) :
    whenSeeded s run = .next (s.answer .unseeded 0#64) := by
  simp [whenSeeded, h, complete]

theorem whenCached_of_present {s : State} (h : s.params.hasCache = true) (run : Answer) : whenCached s run = run := by
  simp [whenCached, h]

theorem whenCached_of_absent {s : State} (h : s.params.hasCache = false) (run : Answer) :
    whenCached s run = .next (s.answer .illegal 0#64) := by
  simp [whenCached, h, complete]

/-- Everything the seed test can answer. -/
theorem whenSeeded_cases {s t : State} {run : Answer} (h : whenSeeded s run = .next t) :
    (s.seeded = true ∧ run = .next t) ∨ (s.seeded = false ∧ t = s.answer .unseeded 0#64) := by
  cases hs : s.seeded with
  | true => exact .inl ⟨rfl, by rwa [whenSeeded_of_seeded hs] at h⟩
  | false => exact .inr ⟨rfl, complete_eq_next.1 (by rw [← h, whenSeeded_of_unseeded hs]; rfl)⟩

/-- Everything the register test can answer. -/
theorem whenCached_cases {s t : State} {run : Answer} (h : whenCached s run = .next t) :
    (s.params.hasCache = true ∧ run = .next t)
      ∨ (s.params.hasCache = false ∧ t = s.answer .illegal 0#64) := by
  cases hs : s.params.hasCache with
  | true => exact .inl ⟨rfl, by rwa [whenCached_of_present hs] at h⟩
  | false => exact .inr ⟨rfl, complete_eq_next.1 (by rw [← h, whenCached_of_absent hs]; rfl)⟩

end Sys2Proof.Machine
end

