-- ==== Sys2Proof/Laws/Exec.lean ====
section
/-! SUPPORT. Everything `exec` can answer, said once: its answer is always a next state, `outcomeOf i s`, which is the
refusal of one of the two tests of rule R69 or the command's own effect. Later proofs cite `exec_eq_outcome` and do a
case split on the command, without unfolding a meaning. -/

namespace Sys2Proof.Machine

/-- What a command does once it has passed the tests of rule R69, its response included. -/
def effectOf : Instr → State → State
  | .nop _, s => s.answer .ok 0#64
  | .status _, s => s.answer .ok s.statusWord
  | .setseed raw, s => (s.seedWith raw).emptyCache.answer .ok 0#64
  | .getseed _, s => s.answer .ok s.pseed
  | .getiseed _, s => s.answer .ok s.iseed
  | .setctr c, s => (s.setCtr c).answer .ok 0#64
  | .getctr _, s => s.answer .ok s.ctr
  | .reset _, s => (s.setCtr s.params.ctrInit).emptyCache.answer .ok 0#64
  | .nextint _, s => s.advanceCtr.answer .ok (zext64 (mix32 s.iseed s.ctr))
  | .nextlong _, s => s.advanceCtr.answer .ok (mix64 s.iseed s.ctr)
  | .getint p, s => s.answer .ok (zext64 (mix32 s.iseed p))
  | .getlong p, s => s.answer .ok (mix64 s.iseed p)
  | .cput v, s => (s.putCache v).answer .ok 0#64
  | .ctake _, s => if s.cvalid then s.emptyCache.answer .ok s.cache else s.answer .empty 0#64
  | .cpeek _, s => if s.cvalid then s.answer .ok s.cache else s.answer .empty 0#64

/-- What a command does in a state: refused by one of the two tests, or its own effect. -/
def outcomeOf (i : Instr) (s : State) : State :=
  if i.wellFormed s.params = false then s.answer .illegal 0#64
  else if i.needsSeed = true ∧ s.seeded = false then s.answer .unseeded 0#64
  else effectOf i s

theorem exec_eq_outcome (i : Instr) (s : State) : exec i s = .next (outcomeOf i s) := by
  cases i <;>
    simp only [exec, execNop, execStatus, execSetseed, execGetseed, execGetiseed, execSetctr, execGetctr, execReset,
      execNextint, execNextlong, execGetint, execGetlong, execCput, execCtake, execCpeek, outcomeOf,
      Instr.wellFormed, Instr.isCache, Instr.needsSeed, effectOf, whenSeeded, whenCached, complete] <;>
    cases s.seeded <;> cases s.params.hasCache <;> simp <;> cases s.cvalid <;> simp

theorem exec_next {i : Instr} {s t : State} (h : exec i s = .next t) : t = outcomeOf i s := by
  rw [exec_eq_outcome] at h
  injection h with h
  exact h.symm

/-- What the state after a command keeps of the ports and the parameters, and that its response is pending. -/
theorem outcomeOf_ports (i : Instr) (s : State) :
    (outcomeOf i s).flight = none ∧ (∃ r, (outcomeOf i s).rsp = some r) ∧ (outcomeOf i s).params = s.params
      ∧ (outcomeOf i s).pins = s.pins ∧ (outcomeOf i s).latencies = s.latencies := by
  cases i <;> cases hs : s.seeded <;> cases hc : s.params.hasCache <;> cases hv : s.cvalid <;>
    simp [outcomeOf, effectOf, Instr.wellFormed, Instr.isCache, Instr.needsSeed, hs, hc, hv]

/-- Everything a command word can do: the outcome of the command it decodes to, or `ILLEGAL`. -/
theorem execWord_cases (w : CommandWord) (s : State) :
    (∃ i, decode w = .ok i ∧ execWord w s = .next (outcomeOf i s))
      ∨ ((∃ e, decode w = .error e) ∧ execWord w s = .next (s.answer .illegal 0#64)) := by
  cases h : decode w with
  | ok i => exact .inl ⟨i, rfl, by simp only [execWord, h]; exact exec_eq_outcome i s⟩
  | error e => exact .inr ⟨⟨e, rfl⟩, by simp only [execWord, h]; rfl⟩

/-- Issuing a command: its response and the state once that is delivered. -/
theorem ask_eq (i : Instr) (s : State) :
    ask i s = (outcomeOf i s).rsp.map fun r => (r, (outcomeOf i s).deliver) := by
  rw [ask, exec_eq_outcome]

/-- Issuing a command and taking the data of its `OK` response. -/
theorem askData_eq (i : Instr) (s : State) : askData i s = match (outcomeOf i s).rsp with
    | some ⟨.ok, d⟩ => some (d, (outcomeOf i s).deliver)
    | _ => none := by
  rw [askData, ask_eq]
  rcases (outcomeOf i s).rsp with _ | ⟨c, d⟩
  · rfl
  · cases c <;> rfl

end Sys2Proof.Machine
end

