-- ==== Sys2Proof/Laws/PerInstr.lean ====
section
/-! SUPPORT. One lemma per constructor of `Instr`: the fields of its command word. -/

namespace Sys2Proof.Laws

/-- The word of a command has its opcode in `op` and its operand whole in `arg` (rules R60, R62). -/
def EncodingFields.Statement (i : Instr) : Prop :=
  opField (encode i) = i.op ∧ argField (encode i) = i.arg

theorem EncodingFields.nop (a : Word) : EncodingFields.Statement (.nop a) :=
  ⟨opField_append _ _, argField_append _ _⟩

theorem EncodingFields.status (a : Word) : EncodingFields.Statement (.status a) :=
  ⟨opField_append _ _, argField_append _ _⟩

theorem EncodingFields.setseed (a : Word) : EncodingFields.Statement (.setseed a) :=
  ⟨opField_append _ _, argField_append _ _⟩

theorem EncodingFields.getseed (a : Word) : EncodingFields.Statement (.getseed a) :=
  ⟨opField_append _ _, argField_append _ _⟩

theorem EncodingFields.getiseed (a : Word) : EncodingFields.Statement (.getiseed a) :=
  ⟨opField_append _ _, argField_append _ _⟩

theorem EncodingFields.setctr (a : Word) : EncodingFields.Statement (.setctr a) :=
  ⟨opField_append _ _, argField_append _ _⟩

theorem EncodingFields.getctr (a : Word) : EncodingFields.Statement (.getctr a) :=
  ⟨opField_append _ _, argField_append _ _⟩

theorem EncodingFields.reset (a : Word) : EncodingFields.Statement (.reset a) :=
  ⟨opField_append _ _, argField_append _ _⟩

theorem EncodingFields.nextint (a : Word) : EncodingFields.Statement (.nextint a) :=
  ⟨opField_append _ _, argField_append _ _⟩

theorem EncodingFields.nextlong (a : Word) : EncodingFields.Statement (.nextlong a) :=
  ⟨opField_append _ _, argField_append _ _⟩

theorem EncodingFields.getint (a : Word) : EncodingFields.Statement (.getint a) :=
  ⟨opField_append _ _, argField_append _ _⟩

theorem EncodingFields.getlong (a : Word) : EncodingFields.Statement (.getlong a) :=
  ⟨opField_append _ _, argField_append _ _⟩

theorem EncodingFields.cput (a : Word) : EncodingFields.Statement (.cput a) :=
  ⟨opField_append _ _, argField_append _ _⟩

theorem EncodingFields.ctake (a : Word) : EncodingFields.Statement (.ctake a) :=
  ⟨opField_append _ _, argField_append _ _⟩

theorem EncodingFields.cpeek (a : Word) : EncodingFields.Statement (.cpeek a) :=
  ⟨opField_append _ _, argField_append _ _⟩

end Sys2Proof.Laws
end

