-- ==== Sys2Proof/Laws/Step.lean ====
section
/-! SUPPORT. Everything one clock edge can do, said once per phase of the ports; and the frame of the outputs. -/

namespace Sys2Proof.Machine

theorem step_of_rst {s : State} (h : s.edge.rst = true) : step s = .next s.pastEdge.hardReset := by
  simp [step, clockEdge, h]

theorem step_of_rsp {s : State} {r : Response} (h : s.edge.rst = false) (hr : s.rsp = some r) :
    step s = .next (if s.edge.rspReady then s.pastEdge.deliver else s.pastEdge) := by
  simp [step, clockEdge, h, hr]

theorem step_of_flight_done {s : State} {f : Flight} (h : s.edge.rst = false) (hr : s.rsp = none)
    (hf : s.flight = some f) (h0 : f.left = 0) : step s = execWord f.word s.pastEdge := by
  simp [step, clockEdge, h, hr, hf, h0]

theorem step_of_flight_busy {s : State} {f : Flight} (h : s.edge.rst = false) (hr : s.rsp = none)
    (hf : s.flight = some f) (h0 : f.left ≠ 0) : step s = .next (s.pastEdge.work f) := by
  simp [step, clockEdge, h, hr, hf, h0]

theorem step_of_idle {s : State} (h : s.edge.rst = false) (hr : s.rsp = none) (hf : s.flight = none) :
    step s = .next (if s.edge.cmdValid then s.pastEdge.accept s.edge.cmdWord else s.pastEdge) := by
  simp [step, clockEdge, h, hr, hf]

/-- Every edge has one of five forms. -/
theorem step_cases (s : State) :
    (s.edge.rst = true ∧ step s = .next s.pastEdge.hardReset)
      ∨ (s.edge.rst = false ∧ (∃ r, s.rsp = some r)
          ∧ step s = .next (if s.edge.rspReady then s.pastEdge.deliver else s.pastEdge))
      ∨ (s.edge.rst = false ∧ s.rsp = none ∧ ∃ f, s.flight = some f ∧ f.left = 0
          ∧ step s = execWord f.word s.pastEdge)
      ∨ (s.edge.rst = false ∧ s.rsp = none ∧ ∃ f, s.flight = some f ∧ f.left ≠ 0
          ∧ step s = .next (s.pastEdge.work f))
      ∨ (s.edge.rst = false ∧ s.rsp = none ∧ s.flight = none
          ∧ step s = .next (if s.edge.cmdValid then s.pastEdge.accept s.edge.cmdWord else s.pastEdge)) := by
  cases h : s.edge.rst with
  | true => exact .inl ⟨rfl, step_of_rst h⟩
  | false =>
    cases hr : s.rsp with
    | some r => exact .inr (.inl ⟨rfl, ⟨r, rfl⟩, step_of_rsp h hr⟩)
    | none =>
      cases hf : s.flight with
      | none => exact .inr (.inr (.inr (.inr ⟨rfl, rfl, rfl, step_of_idle h hr hf⟩)))
      | some f =>
        by_cases h0 : f.left = 0
        · exact .inr (.inr (.inl ⟨rfl, rfl, f, rfl, h0, step_of_flight_done h hr hf h0⟩))
        · exact .inr (.inr (.inr (.inl ⟨rfl, rfl, f, rfl, h0, step_of_flight_busy h hr hf h0⟩)))

end Sys2Proof.Machine
end

