-- ==== Sys2Proof/Tests/Slice0.lean ====
section
/-! SUPPORT. The model's own tests. Expected values are copied from the spec: its encodings, its worked examples and
95_test_vectors.md (with its stand-in parameter values), never from the model. The theorems named `witness_…` show,
for each statement that has hypotheses, a state and operands that meet them, at the boundary values of their ranges. -/

namespace Sys2Proof.Tests

open Sys2Proof.Machine

/-! ## Small states -/

/-- The stand-in parameters of 95_test_vectors.md. -/
def params (ctrInit : Word) : Params := { kCond := 0x0123456789ABCDEF#64, ctrInit := ctrInit, hasCache := true }

/-- The same without the cached-sample register. -/
def paramsNoCache : Params := { params 0#64 with hasCache := false }

/-- The state after hardware reset. -/
def unseeded : State := State.resetOf (params 1#64)

/-- The state after hardware reset of an instance without the register. -/
def unseededNoCache : State := State.resetOf paramsNoCache

/-- 95_test_vectors.md's `I0`: `ISEED = 0x6666CCCC99993333`, seeded, at a counter position. -/
def seededAt (ctr : Word) : State :=
  { State.resetOf (params 1#64) with iseed := 0x6666CCCC99993333#64, ctr := ctr, seeded := true }

/-- `I0` with a cached sample, the pattern of 1.0. -/
def cachedAt (ctr : Word) : State := { seededAt ctr with cache := 0x3FF0000000000000#64, cvalid := true }

/-- `I0` on an instance without the register. -/
def seededNoCache : State := { seededAt 1#64 with params := paramsNoCache }

/-- The response to a command, and the counter after it. -/
def replyAndCtr (i : Instr) (s : State) : Option (Response × Word) := (ask i s).map fun x => (x.1, x.2.ctr)

/-- The responses to a sequence of commands. -/
def replies (is : List Instr) (s : State) : Option (List Response) := (askAll is s).map (·.1)

/-- The state of an answer, where it is a next state. -/
def next? : Answer → Option State
  | .next s => some s
  | .fault _ => none
  | .refused _ => none

/-! ## Well-formedness (rule R65): the three cache commands need the register -/

theorem test_ill_formed_cput : Instr.wellFormed paramsNoCache (.cput 1#64) = false := by decide
theorem test_ill_formed_ctake : Instr.wellFormed paramsNoCache (.ctake 0#64) = false := by decide
theorem test_ill_formed_cpeek : Instr.wellFormed paramsNoCache (.cpeek 0#64) = false := by decide
theorem test_well_formed_cput : Instr.wellFormed (params 0#64) (.cput 1#64) = true := by decide
theorem test_well_formed_nextint : Instr.wellFormed paramsNoCache (.nextint 0#64) = true := by decide

/-! ## Decoding: words written out from rules R60 and R63 and the listings of 95_test_vectors.md section 6 -/

theorem test_decode_nop : decode 0x000000000000000000#72 = .ok (.nop 0#64) := by decide
theorem test_decode_status : decode 0x010000000000000000#72 = .ok (.status 0#64) := by decide
theorem test_decode_setseed : decode 0x10000000000000002A#72 = .ok (.setseed 0x2A#64) := by decide
theorem test_decode_getseed : decode 0x110000000000000000#72 = .ok (.getseed 0#64) := by decide
theorem test_decode_getiseed : decode 0x120000000000000000#72 = .ok (.getiseed 0#64) := by decide
theorem test_decode_setctr : decode 0x13FFFFFFFFFFFFFFFF#72 = .ok (.setctr 0xFFFFFFFFFFFFFFFF#64) := by decide
theorem test_decode_getctr : decode 0x140000000000000055#72 = .ok (.getctr 0x55#64) := by decide
theorem test_decode_reset : decode 0x150000000000000000#72 = .ok (.reset 0#64) := by decide
theorem test_decode_nextint : decode 0x20000000000000DEAD#72 = .ok (.nextint 0xDEAD#64) := by decide
theorem test_decode_nextlong : decode 0x210000000000000000#72 = .ok (.nextlong 0#64) := by decide
theorem test_decode_getint : decode 0x220000000000000002#72 = .ok (.getint 2#64) := by decide
theorem test_decode_getlong : decode 0x23FFFFFFFFFFFFFFFF#72 = .ok (.getlong 0xFFFFFFFFFFFFFFFF#64) := by decide
theorem test_decode_cput : decode 0x303FF0000000000000#72 = .ok (.cput 0x3FF0000000000000#64) := by decide
theorem test_decode_ctake : decode 0x310000000000000000#72 = .ok (.ctake 0#64) := by decide
theorem test_decode_cpeek : decode 0x320000000000000000#72 = .ok (.cpeek 0#64) := by decide

/-- One bit of `op` alone, at bit 71, is a reserved opcode; one bit of `arg` alone, at bit 63, is a `NOP`. -/
theorem test_decode_single_bits :
    decode 0b100000000000000000000000000000000000000000000000000000000000000000000000#72 = .error (.reservedOpcode 0x80#8)
      ∧ decode 0b000000001000000000000000000000000000000000000000000000000000000000000000#72
        = .ok (.nop 0x8000000000000000#64) := by decide

/-- The words around each range of reserved opcodes (rule R64). -/
theorem test_decode_reserved :
    [0x02, 0x0F, 0x16, 0x1F, 0x24, 0x2F, 0x33, 0xFF].all
      (fun op => decode (BitVec.ofNat 8 op ++ 0#64) == .error (.reservedOpcode (BitVec.ofNat 8 op))) = true := by decide

/-- The table's own numbering: 72 bits, `op` at bits 71:64; a shorter instruction's upper bits are 0. -/
theorem test_decode_table_word :
    decodeTableWord 72 0x22000000000000002A = some (.getint 0x2A#64)
      ∧ decodeTableWord 64 0x22000000000000002A = some (.nop 0x2A#64)
      ∧ decodeTableWord 72 0x33FFFFFFFFFFFFFFFF = none := by decide

/-! ## The mixer and the conditioner (95_test_vectors.md sections 2, 3 and 4.2) -/

theorem test_mix32_rows :
    mix32 0x0123456789ABCDEF#64 2#64 = 0x72EA61D9#32 ∧ mix32 0x5555555555555555#64 0x100000000#64 = 0x8E38E390#32
      ∧ mix32 2#64 0x80000000#64 = 3#32 ∧ mix32 1#64 0xFFFFFFFFFFFFFFFF#64 = 0xFFFFFFFE#32 := by decide

/-- The second row is one that sign extension would change (decision D6). -/
theorem test_mix64_rows :
    mix64 0x0123456789ABCDEF#64 2#64 = 0x6687D9D3E86BE1AA#64
      ∧ mix64 0x5555555555555555#64 0x100000000#64 = 0x3F35BA7A948B0FCF#64
      ∧ mix64 2#64 0x80000000#64 = 0x300000004#64 ∧ mix64 0xFFFFFFFFFFFFFFFF#64 1#64 = 0x2FFFFFFFC#64 := by decide

theorem test_balance_rows :
    balance 0#64 = 0x6666CCCC99993333#64 ∧ balance 0x8001#64 = 0x6666CCCC99993333#64
      ∧ balance 7#64 = 0x26664CCC9999F333#64 ∧ balance 0x1F#64 = 0x26664CCDF9991333#64 := by decide

theorem test_balance_near_threshold :
    balance 0x1FFFFFFF#64 = 0x00020005FFFFFFF1#64 ∧ balance 0x3FFFFFFF#64 = 0x3FFFFFFF#64
      ∧ balance 0xFFFF0000FFFF0007#64 = 0xFFC001FBFFC0002E#64 := by decide

theorem test_condition_rows :
    condition 0x0123456789ABCDEF#64 0xDEADBEEFCAFEF00D#64 = 0x6E4C2E2B4D06ACEE#64
      ∧ condition 0x0123456789ABCDEF#64 0x8000000000000000#64 = 0x66664CCC99997333#64 := by decide

/-! ## The commands (95_test_vectors.md section 5.1 and programs P1 to P6) -/

theorem test_nop : ask (.nop 0#64) unseeded = some (⟨.ok, 0#64⟩, unseeded) := by decide

theorem test_status_after_reset :
    replies [.status 0#64] unseeded = some [⟨.ok, 0x104#64⟩]
      ∧ replies [.status 0#64] unseededNoCache = some [⟨.ok, 0x100#64⟩] := by decide

theorem test_status_seeded :
    replies [.status 0#64, .cput 1#64, .status 0#64] (seededAt 0#64)
        = some [⟨.ok, 0x105#64⟩, ⟨.ok, 0#64⟩, ⟨.ok, 0x107#64⟩]
      ∧ replies [.status 0#64] seededNoCache = some [⟨.ok, 0x101#64⟩] := by decide

theorem test_setseed :
    replies [.setseed 42#64, .getseed 0#64, .getiseed 0#64, .getctr 0#64] unseeded
      = some [⟨.ok, 0#64⟩, ⟨.ok, 0x2A#64⟩, ⟨.ok, 0xB7E67147DE18201B#64⟩, ⟨.ok, 1#64⟩] := by decide

theorem test_setseed_empties_the_cache :
    replies [.setseed 0#64, .cpeek 0#64] (cachedAt 7#64) = some [⟨.ok, 0#64⟩, ⟨.empty, 0#64⟩] := by decide

theorem test_getseed : replies [.getseed 0#64] (seededAt 9#64) = some [⟨.ok, 0#64⟩] := by decide
theorem test_getseed_unseeded : ask (.getseed 0#64) unseeded = some (⟨.unseeded, 0#64⟩, unseeded) := by decide

theorem test_getiseed :
    ask (.getiseed 0#64) (seededAt 9#64) = some (⟨.ok, 0x6666CCCC99993333#64⟩, seededAt 9#64) := by decide
theorem test_getiseed_all_ones :
    replies [.setseed 0xFFFFFFFFFFFFFFFF#64, .getiseed 0#64] unseeded
      = some [⟨.ok, 0#64⟩, ⟨.ok, 0x00CD58B9B3E67E4A#64⟩] := by decide

theorem test_setctr : ask (.setctr 0x10#64) (cachedAt 77#64) = some (⟨.ok, 0#64⟩, cachedAt 0x10#64) := by decide
theorem test_setctr_unseeded : ask (.setctr 5#64) unseeded = some (⟨.unseeded, 0#64⟩, unseeded) := by decide

theorem test_getctr : ask (.getctr 0x55#64) (seededAt 0x10#64) = some (⟨.ok, 0x10#64⟩, seededAt 0x10#64) := by decide

theorem test_reset :
    replies [.reset 0#64, .getctr 0#64, .ctake 0#64, .getiseed 0#64] (cachedAt 0x10#64)
      = some [⟨.ok, 0#64⟩, ⟨.ok, 1#64⟩, ⟨.empty, 0#64⟩, ⟨.ok, 0x6666CCCC99993333#64⟩] := by decide
theorem test_reset_unseeded : ask (.reset 0#64) unseeded = some (⟨.unseeded, 0#64⟩, unseeded) := by decide

/-- A result with bit 31 set is zero-extended. -/
theorem test_nextint :
    replyAndCtr (.nextint 0xDEAD#64) (seededAt 1#64) = some (⟨.ok, 0x0A3D47AD#64⟩, 2#64)
      ∧ replyAndCtr (.nextint 0#64) (seededAt 5#64) = some (⟨.ok, 0xFFFBFFFD#64⟩, 6#64) := by decide
theorem test_nextint_wraps :
    replyAndCtr (.nextint 0#64) (seededAt 0xFFFFFFFFFFFFFFFF#64) = some (⟨.ok, 0x0A3D47AE#64⟩, 0#64) := by decide

theorem test_nextlong :
    replyAndCtr (.nextlong 0#64) (seededAt 0x10#64) = some (⟨.ok, 0xB336D8C90EC0A792#64⟩, 0x11#64) := by decide
theorem test_nextlong_wraps :
    replyAndCtr (.nextlong 0#64) (seededAt 0xFFFFFFFFFFFFFFFF#64) = some (⟨.ok, 0xF1A9487F1A93E37A#64⟩, 0#64) := by
  decide

theorem test_getint :
    ask (.getint 2#64) (seededAt 0x77#64) = some (⟨.ok, 0x28F51EB7#64⟩, seededAt 0x77#64) := by decide
theorem test_getlong :
    ask (.getlong 2#64) (seededAt 0x77#64) = some (⟨.ok, 0x3129D7DC5BBF7A0D#64⟩, seededAt 0x77#64) := by decide
theorem test_getlong_at_zero : replyAndCtr (.getlong 0#64) (seededAt 0x77#64) = some (⟨.ok, 0#64⟩, 0x77#64) := by decide

theorem test_cput :
    ask (.cput 0x3FF0000000000000#64) (seededAt 3#64) = some (⟨.ok, 0#64⟩, cachedAt 3#64) := by decide
/-- Zero is a legal payload, distinct from empty. -/
theorem test_cput_zero :
    replies [.cput 0#64, .cpeek 0#64] (cachedAt 3#64) = some [⟨.ok, 0#64⟩, ⟨.ok, 0#64⟩] := by decide

theorem test_ctake :
    replies [.ctake 0#64, .ctake 0#64] (cachedAt 3#64)
      = some [⟨.ok, 0x3FF0000000000000#64⟩, ⟨.empty, 0#64⟩] := by decide
/-- `UNSEEDED`, not `EMPTY`; and `ILLEGAL`, not `UNSEEDED` (rule R204). -/
theorem test_ctake_priority :
    replies [.ctake 0#64] unseeded = some [⟨.unseeded, 0#64⟩]
      ∧ replies [.ctake 0#64] unseededNoCache = some [⟨.illegal, 0#64⟩] := by decide

theorem test_cpeek :
    ask (.cpeek 0#64) (cachedAt 3#64) = some (⟨.ok, 0x3FF0000000000000#64⟩, cachedAt 3#64) := by decide
theorem test_cpeek_empty : ask (.cpeek 0#64) (seededAt 3#64) = some (⟨.empty, 0#64⟩, seededAt 3#64) := by decide

/-- A reserved opcode, whatever its operand (rule R64, program P5). -/
theorem test_reserved :
    transact 0xFF0000000000001234#72 unseeded = some (⟨.illegal, 0#64⟩, unseeded)
      ∧ transact 0x33FFFFFFFFFFFFFFFF#72 (cachedAt 3#64) = some (⟨.illegal, 0#64⟩, cachedAt 3#64) := by decide

/-- `EMPTY` as a 68-bit word is `3_0000000000000000` (rule R147). -/
theorem test_response_word :
    Response.word ⟨.empty, 0#64⟩ = 0x30000000000000000#68
      ∧ Response.word ⟨.ok, 0xB852ACDA48D2AF9F#64⟩ = 0x0B852ACDA48D2AF9F#68 := by decide

/-! ## The ports (rules R42, R220) -/

/-- Accept, complete, deliver: three edges with latency 0; the response word is on the port in between. -/
theorem test_handshake :
    (observe 3 { seededAt 1#64 with pins := [Pins.present 0x200000000000000000#72, Pins.idle, Pins.ready] }).map
        (fun o => (o.accepted, o.delivered, o.state))
      = some ([0x200000000000000000#72], [⟨.ok, 0x0A3D47AD#64⟩], seededAt 2#64) := by decide

/-- A latency of 2 puts the completion two edges later, and the response waits for `rsp_ready`. -/
theorem test_latency :
    (observe 4 { seededAt 1#64 with pins := [Pins.present 0x140000000000000000#72], latencies := [2] }).map
        (fun o => (o.accepted, o.delivered, o.state.rspWord))
      = some ([0x140000000000000000#72], [], some 0x00000000000000001#68) := by decide

/-- Reset takes a `SETSEED` out of flight before it writes anything, and holds both outputs low. -/
theorem test_hardware_reset :
    (next? (step { seededAt 1#64 with
        pins := [{ Pins.ready with rst := true }], flight := some ⟨0x10000000000000002A#72, 0⟩ })).map
        (fun t => (t.seeded, t.cvalid, t.flight, t.rsp)) = some (false, false, none, none)
      ∧ State.cmdReady { seededAt 1#64 with pins := [{ Pins.idle with rst := true }] } = false
      ∧ State.rspValid { seededAt 1#64 with rsp := some ⟨.ok, 0#64⟩, pins := [{ Pins.ready with rst := true }] } = false := by
  decide

/-- The word placed by `withFetchWord` is the one the next step executes, from reset (log entry 8). -/
theorem test_fetch_word :
    (next? (step (State.reset.withFetchWord 72 0x200000000000000000))).map (·.rsp) = some (some ⟨.unseeded, 0#64⟩)
      ∧ (next? (step (State.reset.withFetchWord 72 0x10000000000000002A))).map (·.rsp) = some (some ⟨.ok, 0#64⟩)
      ∧ (next? (step (State.reset.withFetchWord 72 0x10000000000000002A))).map (·.pseed) = some 0x2A#64
      ∧ (next? (step (State.reset.withFetchWord 72 0x330000000000000000))).map (·.rsp) = some (some ⟨.illegal, 0#64⟩) := by
  decide

/-! ## Scripts (rule R70) -/

theorem test_script :
    assemble ['S', 'E', 'T', 'S', 'E', 'E', 'D', ' ', '0', 'x', '2', 'A', ' ', '#', 'x', '\n', '\n',
        'G', 'E', 'T', 'L', 'O', 'N', 'G', ' ', '-', '1', '\n', 'C', 'T', 'A', 'K', 'E', '\n']
      = .ok [0x10000000000000002A#72, 0x23FFFFFFFFFFFFFFFF#72, 0x310000000000000000#72] := by decide

theorem test_script_operands :
    readOperand ['4', '2'] = some 42#64 ∧ readOperand ['-', '5'] = some 0xFFFFFFFFFFFFFFFB#64
      ∧ readOperand ['0', 'x'] = none ∧ readOperand ['-'] = none
      ∧ showCommand 0x10000000000000002A#72
        = ['1', '0', '0', '0', '0', '0', '0', '0', '0', '0', '0', '0', '0', '0', '0', '0', '2', 'A'] := by decide

/-! ## The host layer (95_test_vectors.md section 5.3) -/

theorem test_projections :
    (nextBool (seededAt 1#64)).map (·.1) = some false ∧ (nextBool (seededAt 5#64)).map (·.1) = some true
      ∧ (nextFloat (seededAt 1#64)).map (·.1) = some 0x051EA3#23
      ∧ (nextDouble (seededAt 1#64)).map (·.1) = some 0xB852ACDA48D2A#52 := by decide

theorem test_ranges :
    nextIntRange 8#32 1 (seededAt 1#64) = .value 5#32 (seededAt 2#64)
      ∧ nextIntRange 10#32 1 (seededAt 1#64) = .value 2#32 (seededAt 2#64)
      ∧ nextIntRange 0#32 1 (seededAt 1#64) = .invalidArgument
      ∧ nextIntRange (BitVec.ofInt 32 (-5)) 1 (seededAt 1#64) = .invalidArgument
      ∧ nextIntRangeFrom 10#32 3#32 1 (seededAt 1#64) = .invalidArgument := by decide

theorem test_bytes :
    (nextBytes 3 (seededAt 1#64)).map (fun x => (x.1, x.2.ctr)) = some ([0xD2#8, 0xAF#8, 0x9F#8], 2#64) := by decide

theorem test_clone :
    (clone (cachedAt 3#64) unseeded).map (fun x => equals x.1 x.2) = some true
      ∧ (clone (seededAt 3#64) unseeded).map (fun x => equals x.1 x.2) = some true
      ∧ equals (seededAt 3#64) (cachedAt 3#64) = false := by decide

/-! ## Witnesses -/

/-- The hypotheses about the state that the command rules share: seeded or not, with and without the register, with
and without a cached sample. -/
theorem witness_command_states :
    (seededAt 1#64).seeded = true ∧ unseeded.seeded = false
      ∧ ((cachedAt 1#64).params.hasCache = true ∧ (cachedAt 1#64).seeded = true ∧ (cachedAt 1#64).cvalid = true)
      ∧ ((seededAt 1#64).params.hasCache = true ∧ (seededAt 1#64).seeded = true ∧ (seededAt 1#64).cvalid = false)
      ∧ (unseeded.params.hasCache = true ∧ unseeded.seeded = false) ∧ seededNoCache.params.hasCache = false
      ∧ (seededNoCache.seeded = true ∧ seededNoCache.params.hasCache = false) := by decide

theorem witness_DecodeAndEncodeAgree :
    Instr.wellFormed (params 0#64) (.cput 0xFFFFFFFFFFFFFFFF#64) = true
      ∧ decode 0x320000000000000000#72 = .ok (.cpeek 0#64) := by decide

theorem witness_ReservedOpcodeAnswersIllegal :
    [0x020000000000000000#72, 0x0F0000000000000000#72, 0x160000000000000000#72, 0x1F0000000000000000#72,
      0x240000000000000000#72, 0x2F0000000000000000#72, 0x330000000000000000#72, 0xFFFFFFFFFFFFFFFFFF#72].all (fun w =>
      decide (opField w ∉ [0x00#8, 0x01#8, 0x10#8, 0x11#8, 0x12#8, 0x13#8, 0x14#8, 0x15#8, 0x20#8, 0x21#8, 0x22#8,
        0x23#8, 0x30#8, 0x31#8, 0x32#8])) = true := by decide

theorem witness_UnusedOperandIsIgnored :
    (Instr.nextint 0#64).op = (Instr.nextint 0xDEAD#64).op ∧ (Instr.nextint 0#64).takesOperand = false := by decide

theorem witness_ScriptLinesAssemble :
    ((['S', 'E', 'T', 'S', 'E', 'E', 'D'], Instr.setseed) ∈ scriptTable ∧ (Instr.setseed 0#64).takesOperand = true
      ∧ (1 ≤ 1 ∧ 1 ≤ 16 ∧ (0xF#64 : Word).toNat < 16 ^ 1)
      ∧ (1 ≤ 16 ∧ 16 ≤ 16 ∧ (0xFFFFFFFFFFFFFFFF#64 : Word).toNat < 16 ^ 16))
      ∧ ((['N', 'O', 'P'], Instr.nop) ∈ scriptTable ∧ (Instr.nop 0#64).takesOperand = false)
      ∧ ([0] : List (Fin 10)) ≠ [] :=
  ⟨⟨by simp [scriptTable], rfl, by decide, by decide⟩, ⟨by simp [scriptTable], rfl⟩, by decide⟩

/-- The ends of the decimal range (rule R70): 2^64 - 1 and -2^63 are operands, 2^64 and -2^63 - 1 are not. -/
theorem test_script_decimal_range :
    readOperand ['1', '8', '4', '4', '6', '7', '4', '4', '0', '7', '3', '7', '0', '9', '5', '5', '1', '6', '1', '5']
        = some 0xFFFFFFFFFFFFFFFF#64
      ∧ readOperand ['1', '8', '4', '4', '6', '7', '4', '4', '0', '7', '3', '7', '0', '9', '5', '5', '1', '6', '1', '6']
        = none
      ∧ readOperand ['-', '9', '2', '2', '3', '3', '7', '2', '0', '3', '6', '8', '5', '4', '7', '7', '5', '8', '0', '8']
        = some 0x8000000000000000#64
      ∧ readOperand ['-', '9', '2', '2', '3', '3', '7', '2', '0', '3', '6', '8', '5', '4', '7', '7', '5', '8', '0', '9']
        = none := by decide

theorem witness_MixerCornerCases :
    (0x7FFFFFFF#64 : Word).toNat < 2 ^ 31 ∧ (0xFFFFFFFF#64 : Word).toNat < 2 ^ 32
      ∧ (1 ≤ (1#64 : Word).toNat ∧ (1#64 : Word).toNat * (0xFFFFFFFF#64 : Word).toNat < 2 ^ 32)
      ∧ (2 * (0x55555555#64 : Word).toNat + (1#64 : Word).toNat * (0x55555555#64 : Word).toNat < 2 ^ 32
        ∧ 2 * ((1#64 : Word).toNat * (0x55555555#64 : Word).toNat) + (0x55555555#64 : Word).toNat < 2 ^ 32) := by decide

/-- Populations 30 and 34 are within the threshold. -/
theorem witness_BalanceAcceptsWithinThreshold :
    (((popcount 0x3FFFFFFF#64 : Int) - 32).natAbs ≤ 2 ∧ ((popcount 0x3FFFFFFFF#64 : Int) - 32).natAbs ≤ 2)
      ∧ (30 ≤ popcount 0x3FFFFFFF#64 ∧ popcount 0x3FFFFFFF#64 ≤ 34)
      ∧ (30 ≤ popcount 0x3FFFFFFFF#64 ∧ popcount 0x3FFFFFFFF#64 ≤ 34) := by decide

/-- Populations 0, 29, 35 and 64 are outside it: for the bounded walk and the walk's three properties. -/
theorem witness_BalanceIsTheBoundedWalk :
    2 < ((popcount 0x1FFFFFFF#64 : Int) - 32).natAbs ∧ 2 < ((popcount 0x7FFFFFFFF#64 : Int) - 32).natAbs
      ∧ 2 < ((popcount 0#64 : Int) - 32).natAbs ∧ 2 < ((popcount 0xFFFFFFFFFFFFFFFF#64 : Int) - 32).natAbs := by decide

theorem witness_BalanceEndsWithThirtyTwoOnes : 2 < ((popcount 0x7FFFFFFFF#64 : Int) - 32).natAbs := by decide

theorem witness_BalanceChangesDeviationManyBits : 2 < ((popcount 0x1FFFFFFF#64 : Int) - 32).natAbs := by decide

theorem witness_WalkVisitsDistinctPositions :
    (1 ≤ 1 ∧ 1 ≤ 63 ∧ 15 * 1 % 64 = 15 * 1 % 64) ∧ (1 ≤ 63 ∧ 63 ≤ 63 ∧ 15 * 63 % 64 = 15 * 63 % 64) := by decide

theorem witness_StatusReadsTheStatusWord :
    (3 ≤ 3 ∧ 7 ≤ 7 ∧ 16 ≤ 16 ∧ 63 ≤ 63) ∧ (cachedAt 0#64).seeded = true ∧ seededNoCache.seeded = true := by decide

theorem witness_SetseedSeedsTheBlock : (0#64 : Word) = 0#64 := rfl

theorem witness_GetseedReadsPublicSeed :
    (seededAt 0#64).seeded = true ∧ unseeded.seeded = false
      ∧ ∀ i ∈ [Instr.nextint 0#64, Instr.reset 0#64], isSetseed i = false := by decide

theorem witness_GetiseedReadsInternalSeed : (seededAt 0#64).seeded = true ∧ unseeded.seeded = false := by decide

theorem witness_SetctrWritesTheCounter : (cachedAt 0#64).seeded = true ∧ unseeded.seeded = false := by decide

theorem witness_GetctrReadsTheCounter : (seededAt 0#64).seeded = true ∧ unseeded.seeded = false := by decide

theorem witness_ResetRestoresTheSentinel :
    ((seededAt 1#64).seeded = true ∧ (seededAt 1#64).ctr = (seededAt 1#64).params.ctrInit
      ∧ (seededAt 1#64).cvalid = false) ∧ unseeded.seeded = false := by decide

theorem witness_NextintDrawsAndAdvances :
    ((seededAt 0#64).seeded = true ∧ (seededAt 0#64).ctr = 0#64)
      ∧ ((seededAt 0xFFFFFFFFFFFFFFFF#64).seeded = true
        ∧ (seededAt 0xFFFFFFFFFFFFFFFF#64).ctr = 0xFFFFFFFFFFFFFFFF#64)
      ∧ ((seededAt 1#64).seeded = true ∧ (seededAt 1#64).iseed = 0x6666CCCC99993333#64 ∧ (seededAt 1#64).ctr = 1#64)
      ∧ unseeded.seeded = false := by decide

theorem witness_NextlongDrawsAndAdvances :
    ((seededAt 0#64).seeded = true ∧ (seededAt 0#64).ctr = 0#64)
      ∧ ((seededAt 0xFFFFFFFFFFFFFFFF#64).seeded = true
        ∧ (seededAt 0xFFFFFFFFFFFFFFFF#64).ctr = 0xFFFFFFFFFFFFFFFF#64)
      ∧ ((seededAt 1#64).seeded = true ∧ (seededAt 1#64).iseed = 0x6666CCCC99993333#64 ∧ (seededAt 1#64).ctr = 1#64)
      ∧ unseeded.seeded = false := by decide

theorem witness_GetintProbesWithoutEffect :
    ((seededAt 7#64).seeded = true ∧ (seededAt 7#64).iseed = 0x6666CCCC99993333#64) ∧ unseeded.seeded = false := by
  decide

theorem witness_GetlongProbesWithoutEffect :
    ((seededAt 7#64).seeded = true ∧ (seededAt 7#64).iseed = 0x6666CCCC99993333#64) ∧ unseeded.seeded = false := by
  decide

theorem witness_CputDepositsThePayload :
    ((cachedAt 1#64).params.hasCache = true ∧ (cachedAt 1#64).seeded = true)
      ∧ (unseeded.params.hasCache = true ∧ unseeded.seeded = false) ∧ unseededNoCache.params.hasCache = false := by decide

theorem witness_CtakeCollectsTheSample :
    ((cachedAt 1#64).params.hasCache = true ∧ (cachedAt 1#64).seeded = true ∧ (cachedAt 1#64).cvalid = true)
      ∧ ((seededAt 1#64).params.hasCache = true ∧ (seededAt 1#64).seeded = true ∧ (seededAt 1#64).cvalid = false)
      ∧ (unseeded.params.hasCache = true ∧ unseeded.seeded = false) ∧ seededNoCache.params.hasCache = false := by decide

theorem witness_CpeekReadsTheSample :
    ((cachedAt 1#64).params.hasCache = true ∧ (cachedAt 1#64).seeded = true ∧ (cachedAt 1#64).cvalid = true)
      ∧ ((seededAt 1#64).params.hasCache = true ∧ (seededAt 1#64).seeded = true ∧ (seededAt 1#64).cvalid = false)
      ∧ (unseeded.params.hasCache = true ∧ unseeded.seeded = false) ∧ seededNoCache.params.hasCache = false := by decide

theorem witness_WithoutCacheItsOpcodesAreReserved :
    (seededNoCache.params.hasCache = false ∧ opField 0x300000000000000001#72 = 0x30#8
      ∧ opField 0x310000000000000000#72 = 0x31#8 ∧ opField 0x320000000000000000#72 = 0x32#8)
      ∧ (Instr.nextint 0#64).isCache = false := by decide

theorem witness_CompletionCodes : decode 0xFF0000000000001234#72 = .error (.reservedOpcode 0xFF#8) := by decide

theorem witness_RefusedCommandChangesNothing :
    execWord 0x310000000000000000#72 (seededAt 1#64)
      = .next { seededAt 1#64 with rsp := some ⟨.empty, 0#64⟩ } ∧ Code.empty ≠ Code.ok := ⟨rfl, by decide⟩

theorem witness_WhoWritesWhat :
    exec (.nextint 0#64) (seededAt 1#64)
      = .next { seededAt 2#64 with rsp := some ⟨.ok, 0x0A3D47AD#64⟩ } := by rfl

theorem witness_PublicSeedIsReadOnlyByGetseed :
    exec (.nop 0#64) unseeded = .next { unseeded with rsp := some ⟨.ok, 0#64⟩ }
      ∧ ∀ a, Instr.nop 0#64 ≠ .getseed a := ⟨rfl, by simp⟩

theorem witness_InternalSeedIsNeverExposedForMutation :
    exec (.nop 0#64) unseeded = .next { unseeded with rsp := some ⟨.ok, 0#64⟩ }
      ∧ ∀ a, Instr.nop 0#64 ≠ .getiseed a ∧ Instr.nop 0#64 ≠ .nextint a ∧ Instr.nop 0#64 ≠ .nextlong a
        ∧ Instr.nop 0#64 ≠ .getint a ∧ Instr.nop 0#64 ≠ .getlong a := ⟨rfl, by simp⟩

theorem witness_CounterReadersAndWriters :
    (exec (.nop 0#64) (seededAt 1#64) = .next { seededAt 1#64 with rsp := some ⟨.ok, 0#64⟩ }
      ∧ (seededAt 1#64).seeded = true)
      ∧ ∀ a, Instr.nop 0#64 ≠ .nextint a ∧ Instr.nop 0#64 ≠ .nextlong a ∧ Instr.nop 0#64 ≠ .getctr a :=
  ⟨⟨rfl, rfl⟩, by simp⟩

theorem witness_CounterIncrementWraps :
    ((seededAt 0xFFFFFFFFFFFFFFFF#64).seeded = true ∧ (seededAt 0xFFFFFFFFFFFFFFFF#64).ctr = 0xFFFFFFFFFFFFFFFF#64)
      ∧ ((seededAt 0x7FFFFFFFFFFFFFFF#64).seeded = true
        ∧ (seededAt 0x7FFFFFFFFFFFFFFF#64).ctr = 0x7FFFFFFFFFFFFFFF#64)
      ∧ (∀ i ∈ [Instr.nextint 0#64, Instr.nextlong 0#64], ∃ a, i = .nextint a ∨ i = .nextlong a)
      ∧ ([] : List Instr).length % 2 ^ 64 = 0
      ∧ (List.replicate (2 ^ 64) (Instr.nextint 0#64)).length % 2 ^ 64 = 0 :=
  ⟨by decide, by decide, by simp, by decide, by rw [List.length_replicate, Nat.mod_self]⟩

theorem witness_CachedSampleLifetime :
    (exec (.cpeek 0#64) (seededAt 1#64) = .next { seededAt 1#64 with rsp := some ⟨.empty, 0#64⟩ }
      ∧ (seededAt 1#64).seeded = true ∧ (seededAt 1#64).params.hasCache = true) ∧ (seededAt 1#64).cvalid = false :=
  ⟨⟨rfl, rfl, rfl⟩, rfl⟩

theorem witness_PointQueryMatchesSequentialDraw :
    exec (.setctr 5#64) (seededAt 1#64) = .next { seededAt 5#64 with rsp := some ⟨.ok, 0#64⟩ }
      ∧ exec (.getint 5#64) (seededAt 1#64) = .next { seededAt 1#64 with rsp := some ⟨.ok, 0xFFFBFFFD#64⟩ } :=
  ⟨rfl, by rfl⟩

theorem witness_PointQueriesShareTheStream :
    (∀ i ∈ [Instr.nextint 0#64, Instr.setctr 9#64], isSetseed i = false)
      ∧ askAll [.nextint 0#64, .setctr 9#64] (seededAt 1#64)
        = some ([⟨.ok, 0x0A3D47AD#64⟩, ⟨.ok, 0#64⟩], seededAt 9#64) := by decide

theorem witness_ResetRestartsTheStream :
    (∀ i ∈ [Instr.nextint 0#64, Instr.cput 9#64], isSetseed i = false)
      ∧ (askAll [.setseed 0#64] unseeded).isSome = true
      ∧ (askAll (.setseed 0#64 :: [.nextint 0#64, .cput 9#64] ++ [.reset 0#64]) unseeded).isSome = true := by decide

theorem witness_SeedErasesHistory : unseeded.params = (cachedAt 7#64).params ∧ unseeded ≠ cachedAt 7#64 := by decide

theorem witness_SameStateSameResponse :
    (seededAt 3#64).params = { seededAt 3#64 with cache := 7#64 }.params
      ∧ SameState (seededAt 3#64) { seededAt 3#64 with cache := 7#64 } := by decide

theorem witness_StepRunsTheDecodedCommand :
    ({ seededAt 1#64 with flight := some ⟨0x200000000000000000#72, 0⟩ }.edge.rst = false
      ∧ { seededAt 1#64 with flight := some ⟨0x200000000000000000#72, 0⟩ }.rsp = none
      ∧ decode 0x200000000000000000#72 = .ok (.nextint 0#64)
      ∧ decode 0x330000000000000000#72 = .error (.reservedOpcode 0x33#8))
      ∧ { seededAt 1#64 with flight := some ⟨0x200000000000000000#72, 3⟩ }.flight
        = some ⟨0x200000000000000000#72, 2 + 1⟩ := by decide

theorem witness_HandshakeOneCommandAtATime :
    { seededAt 1#64 with pins := [Pins.present 0#72] }.accepted = some 0#72
      ∧ ((seededAt 1#64).cmdReady = true ∧ (seededAt 1#64).accepted = none)
      ∧ { seededAt 1#64 with flight := some ⟨0#72, 0⟩ }.flight.isSome = true
      ∧ { seededAt 1#64 with rsp := some ⟨.ok, 0#64⟩ }.rsp.isSome = true
      ∧ ({ seededAt 1#64 with rsp := some ⟨.ok, 0#64⟩ }.rspValid = true
        ∧ { seededAt 1#64 with rsp := some ⟨.ok, 0#64⟩ }.edge.rspReady = false)
      ∧ ({ seededAt 1#64 with rsp := some ⟨.ok, 0#64⟩, pins := [Pins.ready] }.rspValid = true
        ∧ { seededAt 1#64 with rsp := some ⟨.ok, 0#64⟩, pins := [Pins.ready] }.edge.rspReady = true) := by decide

theorem witness_HardwareResetAbandonsEverything :
    { cachedAt 1#64 with pins := [{ Pins.present 0#72 with rst := true }] }.edge.rst = true := by decide

theorem witness_StateAfterHardwareReset :
    (Instr.getctr 0#64).needsSeed = true ∧ (Instr.getctr 0#64).wellFormed paramsNoCache = true
      ∧ (Instr.ctake 0#64).needsSeed = true ∧ (Instr.ctake 0#64).wellFormed (params 0#64) = true := by decide

theorem witness_UnseededRegistersAreUnobservable : unseeded.seeded = false ∧ unseeded.cvalid = false := by decide

theorem witness_PortsRefineTheFunctionalModel :
    { seededAt 1#64 with pins := [Pins.present 0#72, Pins.ready] }.flight = none
      ∧ { seededAt 1#64 with pins := [Pins.present 0#72, Pins.ready] }.rsp = none
      ∧ ∀ p ∈ [Pins.present 0#72, Pins.ready].take 5, p.rst = false := by decide

theorem witness_AcceptedCommandCompletes :
    ({ seededAt 1#64 with flight := some ⟨0#72, 2⟩ }.flight = some ⟨0#72, 2⟩
      ∧ { seededAt 1#64 with flight := some ⟨0#72, 2⟩ }.rsp = none
      ∧ ∀ p ∈ { seededAt 1#64 with flight := some ⟨0#72, 2⟩ }.pins.take (2 + 1), p.rst = false)
      ∧ ((∀ p ∈ [Pins.idle, Pins.ready].take 1, p.rst = false ∧ p.rspReady = false)
        ∧ (∀ q, [Pins.idle, Pins.ready][1]? = some q → q.rst = false ∧ q.rspReady = true)
        ∧ 1 < [Pins.idle, Pins.ready].length) :=
  ⟨by decide, by decide, by rintro q h; cases h; decide, by decide⟩

theorem witness_StepKeepsTheInvariant :
    (seededAt 1#64).inv ∧ step (seededAt 1#64) = .next (seededAt 1#64) :=
  ⟨⟨by decide, by decide, by decide, by decide, trivial⟩, rfl⟩

theorem witness_SeededInternalSeedIsBalanced : (seededAt 1#64).inv ∧ (seededAt 1#64).seeded = true :=
  ⟨⟨by decide, by decide, by decide, by decide, trivial⟩, rfl⟩

theorem witness_ParametersAreFixed : step (cachedAt 1#64) = .next (cachedAt 1#64) := rfl

theorem witness_CloneIsInTheSameState :
    (cachedAt 1#64).inv ∧ (cachedAt 1#64).seeded = true ∧ unseeded.params = (cachedAt 1#64).params :=
  ⟨⟨by decide, by decide, by decide, by decide, trivial⟩, rfl, rfl⟩

theorem witness_RangeSamplesLieInRange :
    nextIntRange 10#32 1 (seededAt 1#64) = .value 2#32 (seededAt 2#64)
      ∧ nextIntRangeFrom 3#32 11#32 1 (seededAt 1#64) = .value 8#32 (seededAt 2#64)
      ∧ nextLongRange 1#64 1 (seededAt 1#64) = .value 0#64 (seededAt 2#64)
      ∧ nextLongRangeFrom 9#64 10#64 1 (seededAt 1#64) = .value 9#64 (seededAt 2#64)
      ∧ (0#32 : BitVec 32).toInt ≤ 0 ∧ (3#32 : BitVec 32).toInt ≤ (3#32 : BitVec 32).toInt
      ∧ (0#64 : BitVec 64).toInt ≤ 0 ∧ (3#64 : BitVec 64).toInt ≤ (3#64 : BitVec 64).toInt := by decide

theorem witness_NextBytesFillsBackToFront : (seededAt 1#64).seeded = true ∧ 0 < 9 ∧ 8 < 9 := by decide

end Sys2Proof.Tests
end

section
/-! SUPPORT. Noninterference for the three words of rules R21 to R23, said once for all of them: which commands read
and write each, and what a command does when one of them held another value. -/

namespace Sys2Proof.Machine

/-- The three registers that `SETSEED` writes (rule R20), as an index for what is said of each of them alike. -/
inductive SeedReg where
  | pseed
  | iseed
  | ctr

/-- The value of a register. -/
def State.reg (s : State) : SeedReg → Word
  | .pseed => s.pseed
  | .iseed => s.iseed
  | .ctr => s.ctr

/-- The state with another value in a register. -/
def State.setReg (s : State) (v : Word) : SeedReg → State
  | .pseed => { s with pseed := v }
  | .iseed => { s with iseed := v }
  | .ctr => { s with ctr := v }

/-- The readers that rules R21 to R23 name. -/
def SeedReg.readBy : SeedReg → Instr → Bool
  | .pseed, .getseed _ => true
  | .iseed, .getiseed _ | .iseed, .nextint _ | .iseed, .nextlong _ | .iseed, .getint _ | .iseed, .getlong _ => true
  | .ctr, .nextint _ | .ctr, .nextlong _ | .ctr, .getctr _ => true
  | _, _ => false

/-- The writers that rules R21 to R23 name. -/
def SeedReg.writtenBy : SeedReg → Instr → Bool
  | _, .setseed _ => true
  | .ctr, .reset _ | .ctr, .setctr _ | .ctr, .nextint _ | .ctr, .nextlong _ => true
  | _, _ => false

/-! ### The register update beside the other updates -/

@[simp] theorem State.setReg_params (s : State) (v : Word) (r : SeedReg) : (s.setReg v r).params = s.params := by
  cases r <;> rfl

@[simp] theorem State.setReg_seeded (s : State) (v : Word) (r : SeedReg) : (s.setReg v r).seeded = s.seeded := by
  cases r <;> rfl

@[simp] theorem State.setReg_cvalid (s : State) (v : Word) (r : SeedReg) : (s.setReg v r).cvalid = s.cvalid := by
  cases r <;> rfl

@[simp] theorem State.setReg_cache (s : State) (v : Word) (r : SeedReg) : (s.setReg v r).cache = s.cache := by
  cases r <;> rfl

@[simp] theorem State.setReg_rsp (s : State) (v : Word) (r : SeedReg) : (s.setReg v r).rsp = s.rsp := by
  cases r <;> rfl

@[simp] theorem State.setReg_statusWord (s : State) (v : Word) (r : SeedReg) :
    (s.setReg v r).statusWord = s.statusWord := by
  cases r <;> rfl

@[simp] theorem State.setReg_answer (s : State) (v : Word) (r : SeedReg) (c : Code) (d : Word) :
    (s.setReg v r).answer c d = (s.answer c d).setReg v r := by
  cases r <;> rfl

@[simp] theorem State.setReg_putCache (s : State) (v w : Word) (r : SeedReg) :
    (s.setReg v r).putCache w = (s.putCache w).setReg v r := by
  cases r <;> rfl

@[simp] theorem State.setReg_emptyCache (s : State) (v : Word) (r : SeedReg) :
    (s.setReg v r).emptyCache = s.emptyCache.setReg v r := by
  unfold State.emptyCache
  rw [State.setReg_params]
  cases r <;> split <;> rfl

/-- `SETSEED` overwrites all three registers. -/
@[simp] theorem State.setReg_seedWith (s : State) (v raw : Word) (r : SeedReg) :
    (s.setReg v r).seedWith raw = s.seedWith raw := by
  cases r <;> rfl

@[simp] theorem State.setReg_ctr_setCtr (s : State) (v c : Word) : (s.setReg v .ctr).setCtr c = s.setCtr c := rfl

theorem State.setReg_setCtr (s : State) (v c : Word) {r : SeedReg} (h : r ≠ .ctr) :
    (s.setReg v r).setCtr c = (s.setCtr c).setReg v r := by
  cases r with
  | pseed => rfl
  | iseed => rfl
  | ctr => exact absurd rfl h

/-! ### What a command writes and reads -/

/-- Only the writers' effects change a register. -/
theorem effectOf_reg {r : SeedReg} {i : Instr} (h : r.writtenBy i = false) (s : State) :
    (effectOf i s).reg r = s.reg r := by
  cases i with
  | setseed => cases r <;> cases h
  | reset => cases r <;> cases h <;> simp [effectOf, State.reg]
  | ctake | cpeek => cases r <;> by_cases hv : s.cvalid <;> simp [effectOf, State.reg, hv]
  | _ => cases r <;> cases h <;> rfl

/-- With another value in a register that it does not read, a command has the same effect, the value overwritten by
the writers and left by the others. -/
theorem effectOf_setReg {r : SeedReg} {i : Instr} (h : r.readBy i = false) (s : State) (v : Word) :
    effectOf i (s.setReg v r) = if r.writtenBy i then effectOf i s else (effectOf i s).setReg v r := by
  cases i with
  | setseed => simp [effectOf, SeedReg.writtenBy]
  | reset => cases r <;> simp [effectOf, SeedReg.writtenBy, State.setReg_setCtr]
  | ctake | cpeek => by_cases hv : s.cvalid <;> simp [effectOf, SeedReg.writtenBy, hv]
  | _ => cases r <;> cases h <;> rfl

/-- The two tests of rule R69 see the parameters and `SEEDED` alone, and `SETSEED` passes both: two states that agree
in these are refused with the same code, or both get the command's own effect. -/
theorem outcomeOf_cases (i : Instr) {s t : State} (hp : t.params = s.params) (hs : t.seeded = s.seeded) :
    (isSetseed i = false ∧ ∃ c, outcomeOf i s = s.answer c 0#64 ∧ outcomeOf i t = t.answer c 0#64)
      ∨ (outcomeOf i s = effectOf i s ∧ outcomeOf i t = effectOf i t) := by
  have setseed_passes : isSetseed i = true → i.wellFormed s.params = true ∧ i.needsSeed = false := by
    cases i <;> simp [isSetseed, Instr.wellFormed, Instr.isCache, Instr.needsSeed]
  simp only [outcomeOf, hp, hs]
  by_cases hw : i.wellFormed s.params = false
  · exact .inl ⟨Bool.eq_false_iff.2 fun h => by simp [setseed_passes h] at hw, .illegal, by simp [hw]⟩
  · by_cases hn : i.needsSeed = true ∧ s.seeded = false
    · exact .inl ⟨Bool.eq_false_iff.2 fun h => by simp [setseed_passes h] at hn, .unseeded, by simp [hw, hn]⟩
    · exact .inr (by simp [hw, hn])

theorem outcomeOf_reg {r : SeedReg} {i : Instr} (h : r.writtenBy i = false) (s : State) :
    (outcomeOf i s).reg r = s.reg r := by
  rcases outcomeOf_cases i (s := s) rfl rfl with ⟨-, c, hc, -⟩ | ⟨he, -⟩
  · rw [hc]
    cases r <;> rfl
  · rw [he, effectOf_reg h]

/-- On a seeded block only the cache commands can be refused. -/
theorem outcomeOf_of_seeded {i : Instr} {s : State} (hs : s.seeded = true) (hi : i.isCache = false) :
    outcomeOf i s = effectOf i s := by
  simp [outcomeOf, Instr.wellFormed, hs, hi]

theorem outcomeOf_setseed (raw : Word) (s : State) :
    outcomeOf (.setseed raw) s = (s.seedWith raw).emptyCache.answer .ok 0#64 := by
  simp [outcomeOf, Instr.wellFormed, Instr.isCache, Instr.needsSeed, effectOf]

/-- With another value in a register that it does not read, a command ends in the same state, that register apart;
`SETSEED` in the very same one. -/
theorem outcomeOf_setReg {r : SeedReg} {i : Instr} (h : r.readBy i = false) (s : State) (v : Word) :
    outcomeOf i (s.setReg v r) = outcomeOf i s
      ∨ (isSetseed i = false ∧ outcomeOf i (s.setReg v r) = (outcomeOf i s).setReg v r) := by
  rcases outcomeOf_cases i (s.setReg_params v r) (s.setReg_seeded v r) with ⟨hi, c, hs, ht⟩ | ⟨hs, ht⟩
  · exact .inr ⟨hi, by rw [hs, ht, State.setReg_answer]⟩
  · rw [hs, ht, effectOf_setReg h]
    cases hw : r.writtenBy i with
    | true => exact .inl rfl
    | false =>
      have not_setseed : isSetseed i = false := by
        cases i with
        | setseed => cases r <;> cases hw
        | _ => rfl
      exact .inr ⟨not_setseed, rfl⟩

/-- `outcomeOf_setReg` as the statements ask it of two runs: the response is the same as well. -/
theorem exec_setReg {r : SeedReg} {i : Instr} (h : r.readBy i = false) (s : State) (v : Word) :
    ∃ t u, exec i s = .next t ∧ exec i (s.setReg v r) = .next u ∧ u.rsp = t.rsp
      ∧ u = t.setReg (u.reg r) r ∧ (isSetseed i = true → u.reg r = t.reg r) := by
  refine ⟨outcomeOf i s, outcomeOf i (s.setReg v r), exec_eq_outcome i s, exec_eq_outcome i _, ?_⟩
  rcases outcomeOf_setReg h s v with hu | ⟨hi, hu⟩
  · rw [hu]
    exact ⟨rfl, by cases r <;> rfl, fun _ => rfl⟩
  · rw [hu]
    exact ⟨State.setReg_rsp _ v r, by cases r <;> rfl, by simp [hi]⟩

/-! ### The statements -/

/-- Settles O37: `SETSEED` is the one writer of `PSEED` and `GETSEED` its one reader. -/
theorem publicSeedIsReadOnlyByGetseed : Obligations.PublicSeedIsReadOnlyByGetseed := by
  refine ⟨fun i s t h => ?_, fun i s v hi => exec_setReg (r := .pseed) ?_ s v⟩
  · rw [exec_next h]
    cases i with
    | setseed raw => exact .inr ⟨raw, rfl, by simp [outcomeOf_setseed]⟩
    | _ => exact .inl (outcomeOf_reg (r := .pseed) rfl s)
  · cases i with
    | getseed a => exact absurd rfl (hi a)
    | _ => rfl

/-- Settles O38: `SETSEED` is the one writer of `ISEED`, with the conditioned operand; `GETISEED` and the four
generation commands are its readers. -/
theorem internalSeedIsNeverExposedForMutation : Obligations.InternalSeedIsNeverExposedForMutation := by
  refine ⟨fun i s t h => ?_, fun i s v hi => exec_setReg (r := .iseed) ?_ s v⟩
  · rw [exec_next h]
    cases i with
    | setseed raw => exact .inr ⟨raw, rfl, by simp [outcomeOf_setseed]⟩
    | _ => exact .inl (outcomeOf_reg (r := .iseed) rfl s)
  · cases i with
    | getiseed a | nextint a | nextlong a | getint a | getlong a => simp at hi
    | _ => rfl

/-- Settles O39: on a seeded block each of the five writers has its own effect, and the others leave `CTR` alone;
`NEXTINT`, `NEXTLONG` and `GETCTR` are its readers. -/
theorem counterReadersAndWriters : Obligations.CounterReadersAndWriters := by
  refine ⟨fun i s t h hs => ?_, fun i s v hi => ?_⟩
  · rw [exec_next h]
    cases i with
    | setseed | reset | setctr | nextint | nextlong =>
      rw [outcomeOf_of_seeded hs rfl]
      simp [effectOf]
    | _ => exact outcomeOf_reg (r := .ctr) rfl s
  · have not_read : SeedReg.ctr.readBy i = false := by
      cases i with
      | nextint a | nextlong a | getctr a => simp at hi
      | _ => rfl
    obtain ⟨t, u, ht, hu, hrsp, hctr, -⟩ := exec_setReg not_read s v
    exact ⟨t, u, ht, hu, hrsp, hctr⟩

end Sys2Proof.Machine
end

section
/-! SUPPORT. The decode order of rule R69 on command words: what a reserved opcode decodes to, which opcodes are the
cache commands', which codes a command's own effect answers, and what the presence of the register changes. -/

namespace Sys2Proof.Machine

/-! ### Reserved opcodes and the cache commands' opcodes -/

/-- An opcode that stands in no row of the map decodes to no command (rule R64). -/
theorem decode_reserved {w : CommandWord} (h : ∀ row ∈ opcodeMap, row.1 ≠ opField w) :
    decode w = .error (.reservedOpcode (opField w)) := by
  simp only [decode, lookup_none h]

theorem decode_cput {w : CommandWord} (h : opField w = 0x30#8) : decode w = .ok (.cput (argField w)) := by
  rw [decode, h]
  rfl

theorem decode_ctake {w : CommandWord} (h : opField w = 0x31#8) : decode w = .ok (.ctake (argField w)) := by
  rw [decode, h]
  rfl

theorem decode_cpeek {w : CommandWord} (h : opField w = 0x32#8) : decode w = .ok (.cpeek (argField w)) := by
  rw [decode, h]
  rfl

/-- The opcodes 0x30 to 0x32 are the cache commands' (rule R65). -/
theorem decode_cache {w : CommandWord} (h : opField w = 0x30#8 ∨ opField w = 0x31#8 ∨ opField w = 0x32#8) :
    ∃ i, decode w = .ok i ∧ i.isCache = true := by
  rcases h with h | h | h
  · exact ⟨_, decode_cput h, rfl⟩
  · exact ⟨_, decode_ctake h, rfl⟩
  · exact ⟨_, decode_cpeek h, rfl⟩

/-! ### Words that decode, and words that do not -/

theorem execWord_of_error {w : CommandWord} {e : DecodeError} (h : decode w = .error e) (s : State) :
    execWord w s = .next (s.answer .illegal 0#64) := by
  rw [execWord, h]
  rfl

theorem execWord_of_ok {w : CommandWord} {i : Instr} (h : decode w = .ok i) (s : State) :
    execWord w s = exec i s := by
  rw [execWord, h]

/-! ### The three tests of rule R69 -/

theorem outcomeOf_of_missing {i : Instr} {s : State} (h : i.wellFormed s.params = false) :
    outcomeOf i s = s.answer .illegal 0#64 := if_pos h

theorem outcomeOf_of_unseeded {i : Instr} {s : State} (hw : i.wellFormed s.params ≠ false)
    (hn : i.needsSeed = true ∧ s.seeded = false) : outcomeOf i s = s.answer .unseeded 0#64 := by
  rw [outcomeOf, if_neg hw, if_pos hn]

theorem outcomeOf_of_admitted {i : Instr} {s : State} (hw : i.wellFormed s.params ≠ false)
    (hn : ¬(i.needsSeed = true ∧ s.seeded = false)) : outcomeOf i s = effectOf i s := by
  rw [outcomeOf, if_neg hw, if_neg hn]

/-- A command that has passed the tests answers `OK`, or `EMPTY` where it collects or peeks. -/
theorem effectOf_code (i : Instr) (s : State) : ∃ r, (effectOf i s).rsp = some r
    ∧ (r.code = .ok ∨ r.code = .empty ∧ (i.op = 0x31#8 ∨ i.op = 0x32#8)) := by
  cases i with
  | ctake | cpeek => by_cases hv : s.cvalid <;> simp [effectOf, hv, Instr.op]
  | _ => exact ⟨_, rfl, .inl rfl⟩

/-! ### The same block with and without the register -/

/-- The state on a block that has the cached-sample register, or lacks it, and is otherwise the same. -/
def State.setHasCache (s : State) (b : Bool) : State :=
  { s with params := { s.params with hasCache := b } }

/-- Equal seeds, counter and flags. -/
def SameRegisters (t u : State) : Prop :=
  t.pseed = u.pseed ∧ t.iseed = u.iseed ∧ t.ctr = u.ctr ∧ t.cvalid = u.cvalid ∧ t.seeded = u.seeded

/-- Of the commands that are not the cache's, `STATUS` alone sees the register, in its response. -/
theorem effectOf_setHasCache {i : Instr} (h : i.isCache = false) (s : State) (b c : Bool) :
    ((∀ a, i ≠ .status a) → (effectOf i (s.setHasCache b)).rsp = (effectOf i (s.setHasCache c)).rsp)
      ∧ SameRegisters (effectOf i (s.setHasCache b)) (effectOf i (s.setHasCache c)) := by
  cases i with
  | setseed | reset => simp [effectOf, SameRegisters, State.setHasCache]
  | status a => exact ⟨fun hs => absurd rfl (hs a), rfl, rfl, rfl, rfl, rfl⟩
  | cput | ctake | cpeek => cases h
  | _ => exact ⟨fun _ => rfl, rfl, rfl, rfl, rfl, rfl⟩

/-- `effectOf_setHasCache` with the seed test, the one test that a command not the cache's can fail. -/
theorem outcomeOf_setHasCache {i : Instr} (h : i.isCache = false) (s : State) (b c : Bool) :
    ((∀ a, i ≠ .status a) → (outcomeOf i (s.setHasCache b)).rsp = (outcomeOf i (s.setHasCache c)).rsp)
      ∧ SameRegisters (outcomeOf i (s.setHasCache b)) (outcomeOf i (s.setHasCache c)) := by
  have exists_anyway (p : Params) : i.wellFormed p ≠ false := by simp [Instr.wellFormed, h]
  by_cases hn : i.needsSeed = true ∧ s.seeded = false
  · have refused (b : Bool) : outcomeOf i (s.setHasCache b) = (s.setHasCache b).answer .unseeded 0#64 :=
      outcomeOf_of_unseeded (exists_anyway _) hn
    rw [refused, refused]
    exact ⟨fun _ => rfl, rfl, rfl, rfl, rfl, rfl⟩
  · have admitted (b : Bool) : outcomeOf i (s.setHasCache b) = effectOf i (s.setHasCache b) :=
      outcomeOf_of_admitted (exists_anyway _) hn
    rw [admitted, admitted]
    exact effectOf_setHasCache h s b c

/-! ### The statements -/

/-- Settles O3: an opcode in no row of the map is reserved, and the gaps of the map are the four ranges. -/
theorem reservedOpcodeAnswersIllegal : Obligations.ReservedOpcodeAnswersIllegal := by
  refine ⟨fun w s h => execWord_of_error (decode_reserved fun row hrow heq => h ?_) s, fun op => ?_⟩
  · rw [← heq]
    exact List.mem_map_of_mem (f := Prod.fst) hrow
  · simp only [List.mem_cons, List.not_mem_nil, or_false]
    bv_omega

/-- Settles O31: without the register a cache command fails the first test of rule R69; the others never meet it. -/
theorem withoutCacheItsOpcodesAreReserved : Obligations.WithoutCacheItsOpcodesAreReserved := by
  refine ⟨fun w s hc hop => ?_, fun i s hi => ?_⟩
  · obtain ⟨i, hdec, hi⟩ := decode_cache hop
    have missing : i.wellFormed s.params = false := by simp [Instr.wellFormed, hi, hc]
    rw [execWord_of_ok hdec, exec_eq_outcome, outcomeOf_of_missing missing]
    rfl
  · obtain ⟨hrsp, hregs⟩ := outcomeOf_setHasCache hi s false true
    exact ⟨_, _, exec_eq_outcome i _, exec_eq_outcome i _, hrsp, hregs⟩

/-- Settles O32: decoding, then the two tests, then the command's own effect, whose codes are `effectOf_code`'s. -/
theorem decodeOrder : Obligations.DecodeOrder := by
  intro w s
  cases hdec : decode w with
  | error e => exact execWord_of_error hdec s
  | ok i =>
    simp only [execWord_of_ok hdec, exec_eq_outcome, true_and]
    split_ifs with hw hn
    · exact congrArg _ (outcomeOf_of_missing hw)
    · exact congrArg _ (outcomeOf_of_unseeded hw hn)
    · rw [outcomeOf_of_admitted hw hn]
      obtain ⟨r, hr, hcode⟩ := effectOf_code i s
      exact ⟨_, r, rfl, hr, hcode⟩

end Sys2Proof.Machine
end

section
/-! SUPPORT. The seed conditioner of rules R82 and R83 and the command that runs it: the walk as an iterated round, and
the pre-seed of raw seed 0. -/

namespace Sys2Proof.Machine

/-! ### The deviation (rule R82) -/

theorem deviation_eq (p : Word) : deviation p = (popcount p : Int) - 32 := rfl

theorem balance_of_count {p : Word} (hlo : 30 ≤ popcount p) (hhi : popcount p ≤ 34) : balance p = p := by
  refine balance_of_near ?_
  rw [deviation_eq, Config.condThreshold]
  omega

/-! ### The walk as an iterated round (rule R83) -/

/-- One round of the loop on the word and the corrections still to make. -/
def walkRound (target : Bool) (x : Word × Nat) : Word × Nat :=
  if x.2 = 0 then x
  else
    let q := rotr x.1 Config.condRot
    if q.getLsbD 0 = target then (q, x.2) else (withBit0 q target, x.2 - 1)

theorem walkRound_zero (target : Bool) (p : Word) : walkRound target (p, 0) = (p, 0) := rfl

theorem walkRound_of_match {target : Bool} {p : Word} (h : (rotr p Config.condRot).getLsbD 0 = target) (k : Nat) :
    walkRound target (p, k + 1) = (rotr p Config.condRot, k + 1) := by
  simp only [walkRound, if_pos h, if_neg k.succ_ne_zero]

theorem walkRound_of_mismatch {target : Bool} {p : Word} (h : (rotr p Config.condRot).getLsbD 0 ≠ target) (k : Nat) :
    walkRound target (p, k + 1) = (withBit0 (rotr p Config.condRot) target, k) := by
  simp only [walkRound, if_neg h, if_neg k.succ_ne_zero, Nat.add_sub_cancel]

/-- The walk stops at count 0, where every further round does nothing. -/
theorem walk_eq_iterate (target : Bool) (n k : Nat) (p : Word) :
    walk target n k p = ((walkRound target)^[n] (p, k)).1 := by
  induction n generalizing k p with
  | zero => rfl
  | succ n ih =>
    cases k with
    | zero => rw [walk, Function.iterate_fixed (walkRound_zero target p)]
    | succ k =>
      rw [walk, Function.iterate_succ_apply]
      by_cases h : (rotr p Config.condRot).getLsbD 0 = target
      · rw [if_pos h, walkRound_of_match h, ih]
      · rw [if_neg h, walkRound_of_mismatch h, ih]

/-- The target bit is 0 where the count is too high and 1 where it is too low. -/
theorem target_eq {p : Word} (h : deviation p ≠ 0) :
    decide (deviation p < 0) = if 0 < deviation p then false else true := by
  split_ifs with hpos
  · exact decide_eq_false (by omega)
  · exact decide_eq_true (by omega)

/-! ### Raw seed 0 -/

/-- At counter 0 the mixer answers 0 for every seed. -/
theorem mix64_zero (k : Word) : mix64 k 0#64 = 0#64 := by
  simp only [mix64, BitVec.mul_zero]
  decide

theorem balance_zero : balance 0#64 = 0x6666CCCC99993333#64 := by decide

theorem condition_zero (k : Word) : condition k 0#64 = 0x6666CCCC99993333#64 := by
  rw [condition, mix64_zero, balance_zero]

/-! ### The statements -/

/-- Settles O9: the population count is at most 64, and 30 to 34 are the counts within the threshold. -/
theorem balanceAcceptsWithinThreshold : Obligations.BalanceAcceptsWithinThreshold := by
  refine ⟨fun p => ?_, fun p h => balance_of_near h, fun p => balance_of_count, balance_of_count ?_ ?_⟩
  · have at_most : popcount p ≤ 64 := popcount_le p
    omega
  · decide
  · decide

/-- Settles O10: outside the threshold `BALANCE` is the walk, which is the iterated round. -/
theorem balanceIsTheBoundedWalk : Obligations.BalanceIsTheBoundedWalk := by
  intro p far
  have off_target : deviation p ≠ 0 := by
    rw [deviation_eq]
    omega
  calc balance p
    _ = walk (decide (deviation p < 0)) Config.condMaxRot (deviation p).natAbs p := balance_of_far far
    _ = ((walkRound (decide (deviation p < 0)))^[63] (p, (deviation p).natAbs)).1 := walk_eq_iterate ..
    _ = ((walkRound (if 0 < deviation p then false else true))^[63] (p, (deviation p).natAbs)).1 := by
      rw [target_eq off_target]

/-- Settles O18: `SETSEED` passes both tests of rule R69, and its effect makes the five writes. -/
theorem setseedSeedsTheBlock : Obligations.SetseedSeedsTheBlock := by
  intro raw s
  have seed_zero : raw = 0#64 → condition s.params.kCond raw = 0x6666CCCC99993333#64 := by
    rintro rfl
    exact condition_zero _
  refine ⟨(s.seedWith raw).emptyCache.answer .ok 0#64, ?_, ?_⟩
  · rw [exec_eq_outcome, outcomeOf_setseed]
  · simpa using seed_zero

end Sys2Proof.Machine
end

section
/-! SUPPORT. The counter mixer in exact integers (41_counter_mixer.md, rules R101 to R103): both functions as expressions in
words, then the value of each operation from Laws/Bits. -/

namespace Sys2Proof.Machine

/-! ### The mixer's words -/

/-- Rule R101's last line, as one expression in words. -/
theorem mix32_eq (seed counter : Word) :
    mix32 seed counter = high32 (mixRound (seed * counter) counter + seed * counter + counter) := rfl

/-- The word `x2` of rule R102, which both operands of the final XOR read. -/
def secondRound (seed counter : Word) : Word := mixRound (mixRound (seed * counter) counter) (seed * counter)

/-- Rule R102's last line, with the zero extension of rule R103. -/
theorem mix64_eq (seed counter : Word) :
    mix64 seed counter =
      zext64 (high32 (secondRound seed counter + seed * counter + counter)) ^^^
        (secondRound seed counter + counter) := rfl

/-! ### Their values -/

/-- A sum of three words is reduced once. -/
theorem add_add_toNat (x y z : Word) : (x + y + z).toNat = (x.toNat + y.toNat + z.toNat) % 2 ^ 64 := by
  rw [BitVec.toNat_add, BitVec.toNat_add, Nat.mod_add_mod]

theorem secondRound_toNat (seed counter : Word) :
    (secondRound seed counter).toNat =
      ((mixRound (seed * counter) counter).toNat / 2 ^ 32 * (mixRound (seed * counter) counter).toNat
        + (seed * counter).toNat) % 2 ^ 64 := mixRound_toNat ..

/-- XOR with a zero-extended high half, in integers. -/
theorem zext64_high32_xor_toNat (a b : Word) : (zext64 (high32 a) ^^^ b).toNat = (a.toNat / 2 ^ 32) ^^^ b.toNat := by
  rw [BitVec.toNat_xor, zext64_toNat, high32_toNat]

/-- The zero extension leaves the other operand's high half as it is (rule R103). -/
theorem zext64_high32_xor_high (a b : Word) : (zext64 (high32 a) ^^^ b).toNat / 2 ^ 32 = b.toNat / 2 ^ 32 := by
  have no_high_bits : a.toNat / 2 ^ 32 / 2 ^ 32 = 0 := by
    have := a.isLt
    omega
  rw [zext64_high32_xor_toNat, Nat.xor_div_two_pow, no_high_bits, Nat.zero_xor]

/-! ### The statements -/

/-- Settles O6: the value of each operation of rule R101, from the output stage inwards. -/
theorem mix32InIntegers : Obligations.Mix32InIntegers := by
  refine ⟨fun seed counter => ?_, by decide⟩
  rw [mix32_eq, high32_toNat, add_add_toNat, mixRound_toNat, BitVec.toNat_mul]

/-- Settles O7: the sums `a` and `b` of rule R102 in integers, then the XOR and its high half. -/
theorem mix64InIntegers : Obligations.Mix64InIntegers := by
  refine ⟨fun seed counter => ?_, by decide⟩
  intro x0 x1 x2 a b
  have x2_value : (secondRound seed counter).toNat = x2 := by
    rw [secondRound_toNat, mixRound_toNat, BitVec.toNat_mul]
  have a_value : (secondRound seed counter + seed * counter + counter).toNat = a := by
    rw [add_add_toNat, x2_value, BitVec.toNat_mul]
  have b_value : (secondRound seed counter + counter).toNat = b := by
    rw [BitVec.toNat_add, x2_value]
  rw [mix64_eq, zext64_high32_xor_high, zext64_high32_xor_toNat, a_value, b_value]
  exact ⟨rfl, rfl⟩

end Sys2Proof.Machine
end

section
/-! SUPPORT. The generation commands (42_generation_commands.md): the rule of each on a seeded block, the one refusal
they share, and what a sequence of draws does to the counter (rule R125). -/

namespace Sys2Proof.Machine

/-! ### Passing and failing the seed test -/

theorem exec_of_seeded {i : Instr} {s : State} (hs : s.seeded = true) (hi : i.isCache = false) :
    exec i s = .next (effectOf i s) := by
  rw [exec_eq_outcome, outcomeOf_of_seeded hs hi]

theorem outcomeOf_of_seedless {i : Instr} {s : State} (hs : s.seeded = false) (hi : i.isCache = false)
    (hn : i.needsSeed = true) : outcomeOf i s = s.answer .unseeded 0#64 :=
  outcomeOf_of_unseeded (by simp [Instr.wellFormed, hi]) ⟨hn, hs⟩

theorem exec_of_seedless {i : Instr} {s : State} (hs : s.seeded = false) (hi : i.isCache = false)
    (hn : i.needsSeed = true) : exec i s = .next (s.answer .unseeded 0#64) := by
  rw [exec_eq_outcome, outcomeOf_of_seedless hs hi hn]

/-! ### The four rules on a seeded block -/

theorem exec_nextint {s : State} (a : Word) (hs : s.seeded = true) :
    exec (.nextint a) s = .next (s.advanceCtr.answer .ok (zext64 (mix32 s.iseed s.ctr))) := exec_of_seeded hs rfl

theorem exec_nextlong {s : State} (a : Word) (hs : s.seeded = true) :
    exec (.nextlong a) s = .next (s.advanceCtr.answer .ok (mix64 s.iseed s.ctr)) := exec_of_seeded hs rfl

theorem exec_getint {s : State} (p : Word) (hs : s.seeded = true) :
    exec (.getint p) s = .next (s.answer .ok (zext64 (mix32 s.iseed p))) := exec_of_seeded hs rfl

theorem exec_getlong {s : State} (p : Word) (hs : s.seeded = true) :
    exec (.getlong p) s = .next (s.answer .ok (mix64 s.iseed p)) := exec_of_seeded hs rfl

/-! ### The corners of the counter -/

/-- At counter 0 the mixer answers 0 for every seed. -/
theorem mix32_zero (k : Word) : mix32 k 0#64 = 0#32 := by
  simp only [mix32, BitVec.mul_zero]
  decide

theorem State.advanceCtr_of_ctr {s : State} {c : Word} (h : s.ctr = c) : s.advanceCtr = s.setCtr (c + 1#64) := by
  rw [← h]
  rfl

/-! ### Responses -/

theorem ask_map_fst (i : Instr) (s : State) : (ask i s).map (·.1) = (outcomeOf i s).rsp := by
  rw [ask_eq]
  cases (outcomeOf i s).rsp <;> rfl

/-- Two commands that meet the same seed test answer alike wherever their effects do. -/
theorem ask_map_fst_eq_of_effectOf {i j : Instr} (hi : i.isCache = false) (hj : j.isCache = false)
    (hni : i.needsSeed = true) (hnj : j.needsSeed = true) {s : State} (h : (effectOf i s).rsp = (effectOf j s).rsp) :
    (ask i s).map (·.1) = (ask j s).map (·.1) := by
  rw [ask_map_fst, ask_map_fst]
  cases hs : s.seeded with
  | true => rw [outcomeOf_of_seeded hs hi, outcomeOf_of_seeded hs hj, h]
  | false => rw [outcomeOf_of_seedless hs hi hni, outcomeOf_of_seedless hs hj hnj]

/-- A sequence that begins with a command whose next state is known. -/
theorem askAll_cons_of_exec {i : Instr} {s t : State} {c : Code} {d : Word} (h : exec i s = .next (t.answer c d))
    (is : List Instr) :
    askAll (i :: is) s = (askAll is (t.answer c d).deliver).map fun x => (⟨c, d⟩ :: x.1, x.2) := by
  rw [askAll, ask, h]
  rfl

/-! ### Draws -/

/-- The two commands that advance the counter (rule R125). -/
def IsDraw (i : Instr) : Prop := ∃ a, i = .nextint a ∨ i = .nextlong a

/-- Both draws do the same to the state and differ in their data alone. -/
theorem exec_draw {i : Instr} (hi : IsDraw i) {s : State} (hs : s.seeded = true) :
    ∃ d, exec i s = .next (s.advanceCtr.answer .ok d) := by
  obtain ⟨a, rfl | rfl⟩ := hi
  · exact ⟨_, exec_nextint a hs⟩
  · exact ⟨_, exec_nextlong a hs⟩

/-- A sequence of draws advances the counter by its length and keeps the stream's seed. -/
theorem askAll_draws {draws : List Instr} (hd : ∀ i ∈ draws, IsDraw i) {s : State} (hs : s.seeded = true) :
    ∃ rs t, askAll draws s = some (rs, t) ∧ t.iseed = s.iseed ∧ t.seeded = true
      ∧ t.ctr = s.ctr + BitVec.ofNat 64 draws.length := by
  induction draws generalizing s with
  | nil => exact ⟨[], s, rfl, rfl, hs, (BitVec.add_zero _).symm⟩
  | cons i is ih =>
    obtain ⟨hi, his⟩ := List.forall_mem_cons.1 hd
    obtain ⟨d, hexec⟩ := exec_draw hi hs
    obtain ⟨rs, t, hall, hiseed, hseeded, hctr⟩ := ih his (s := (s.advanceCtr.answer .ok d).deliver) hs
    refine ⟨⟨.ok, d⟩ :: rs, t, ?_, hiseed, hseeded, ?_⟩
    · rw [askAll_cons_of_exec hexec, hall]
      rfl
    · calc t.ctr
        _ = s.ctr + 1#64 + BitVec.ofNat 64 is.length := hctr
        _ = s.ctr + BitVec.ofNat 64 (is.length + 1) := by
          rw [BitVec.add_assoc, BitVec.add_comm 1#64, BitVec.ofNat_add]

/-! ### The statements -/

/-- Settles O40: one draw adds 1 to `CTR` in machine words, a sequence its length, and both sums wrap. -/
theorem counterIncrementWraps : Obligations.CounterIncrementWraps := by
  refine ⟨fun i s a hi hs => ?_, fun draws s hd hs => ?_⟩
  · obtain ⟨d, hexec⟩ := exec_draw ⟨a, hi⟩ hs
    refine ⟨_, d, hexec, BitVec.toNat_add .., rfl, rfl, rfl, fun hc => ?_, fun hc => ?_⟩
    · simp [hc]
    · simp [hc]
  · obtain ⟨rs, t, hall, hiseed, hseeded, hctr⟩ := askAll_draws hd hs
    have hnat : t.ctr.toNat = (s.ctr.toNat + draws.length) % 2 ^ 64 := by
      rw [hctr, BitVec.toNat_add, BitVec.toNat_ofNat, Nat.add_mod_mod]
    refine ⟨rs, t, hall, hiseed, hseeded, hnat, fun full_turns => BitVec.eq_of_toNat_eq ?_⟩
    rw [hnat, Nat.add_mod, full_turns, Nat.add_zero, Nat.mod_mod, Nat.mod_eq_of_lt s.ctr.isLt]

/-- Settles O24: `exec_nextint`, at counter 0, at the top of the counter and at the worked example. -/
theorem nextintDrawsAndAdvances : Obligations.NextintDrawsAndAdvances := by
  refine ⟨fun a s hs => exec_nextint a hs, fun a s hs => exec_of_seedless hs rfl rfl, fun a s hs hc => ?_,
    fun a s hs hc => ⟨_, exec_nextint a hs, ?_⟩, fun a s hs hk hc => ?_⟩
  · rw [exec_nextint a hs, State.advanceCtr_of_ctr hc, hc, mix32_zero]
    rfl
  · simp [hc]
  · have worked : zext64 (mix32 s.iseed s.ctr) = 0x000000000A3D47AD#64 := by
      rw [hk, hc]
      decide
    rw [exec_nextint a hs, State.advanceCtr_of_ctr hc, worked]
    rfl

/-- Settles O25: `exec_nextlong`, at counter 0, at the top of the counter and twice in the worked example. -/
theorem nextlongDrawsAndAdvances : Obligations.NextlongDrawsAndAdvances := by
  refine ⟨fun a s hs => exec_nextlong a hs, fun a s hs => exec_of_seedless hs rfl rfl, fun a s hs hc => ?_,
    fun a s hs hc => ⟨_, exec_nextlong a hs, ?_⟩, fun a b s hs hk hc => ?_⟩
  · rw [exec_nextlong a hs, State.advanceCtr_of_ctr hc, hc, mix64_zero]
    rfl
  · simp [hc]
  · have first : mix64 0x6666CCCC99993333#64 1#64 = 0xB852ACDA48D2AF9F#64 := by decide
    have second : mix64 0x6666CCCC99993333#64 2#64 = 0x3129D7DC5BBF7A0D#64 := by decide
    rw [askAll_cons_of_exec (exec_nextlong a hs), askAll_cons_of_exec (exec_nextlong b (by simpa using hs))]
    simp [askAll, hk, hc, first, second]

/-- Settles O26: `exec_getint` at any probe; its effect answers what `NEXTINT`'s does where the probe is `CTR`. -/
theorem getintProbesWithoutEffect : Obligations.GetintProbesWithoutEffect := by
  refine ⟨fun p s hs => exec_getint p hs, fun p s hs => exec_of_seedless hs rfl rfl, fun s hs => ?_,
    fun a s => ask_map_fst_eq_of_effectOf rfl rfl rfl rfl rfl, fun s hs hk => ?_⟩
  · rw [exec_getint 0#64 hs, mix32_zero]
    rfl
  · have worked : zext64 (mix32 s.iseed 2#64) = 0x0000000028F51EB7#64 := by
      rw [hk]
      decide
    rw [exec_getint 2#64 hs, worked]
    rfl

/-- Settles O27: `exec_getlong` at any probe; its effect answers what `NEXTLONG`'s does where the probe is `CTR`. -/
theorem getlongProbesWithoutEffect : Obligations.GetlongProbesWithoutEffect := by
  refine ⟨fun p s hs => exec_getlong p hs, fun p s hs => exec_of_seedless hs rfl rfl, fun s hs => ?_,
    fun a s => ask_map_fst_eq_of_effectOf rfl rfl rfl rfl rfl, fun s hs hk => ?_⟩
  · rw [exec_getlong 0#64 hs, mix64_zero]
    rfl
  · have worked : mix64 s.iseed 0xFFFFFFFFFFFFFFFF#64 = 0xF1A9487F1A93E37A#64 := by
      rw [hk]
      decide
    rw [exec_getlong 0xFFFFFFFFFFFFFFFF#64 hs, worked]
    rfl

end Sys2Proof.Machine
end

section
/-! SUPPORT. The housekeeping and state-access commands (43_state_commands.md): the rule of each on a seeded block, the
status word bit by bit, and what the public seed is after any commands but `SETSEED`. -/

namespace Sys2Proof.Machine

/-! ### The rules -/

theorem exec_setseed (raw : Word) (s : State) :
    exec (.setseed raw) s = .next ((s.seedWith raw).emptyCache.answer .ok 0#64) := by
  rw [exec_eq_outcome, outcomeOf_setseed]

theorem exec_getseed {s : State} (a : Word) (hs : s.seeded = true) :
    exec (.getseed a) s = .next (s.answer .ok s.pseed) := exec_of_seeded hs rfl

theorem exec_getiseed {s : State} (a : Word) (hs : s.seeded = true) :
    exec (.getiseed a) s = .next (s.answer .ok s.iseed) := exec_of_seeded hs rfl

theorem exec_setctr {s : State} (c : Word) (hs : s.seeded = true) :
    exec (.setctr c) s = .next ((s.setCtr c).answer .ok 0#64) := exec_of_seeded hs rfl

theorem exec_getctr {s : State} (a : Word) (hs : s.seeded = true) :
    exec (.getctr a) s = .next (s.answer .ok s.ctr) := exec_of_seeded hs rfl

theorem exec_reset {s : State} (a : Word) (hs : s.seeded = true) :
    exec (.reset a) s = .next ((s.setCtr s.params.ctrInit).emptyCache.answer .ok 0#64) := exec_of_seeded hs rfl

/-! ### The status word (rule R29) -/

/-- The layout: the three flags from bit 0, then the version, which is 1 at bit 8. The word's parts have widths that only
add up to 64, so the first concatenation is seen by `erw` alone. -/
theorem State.statusWord_bit (s : State) (j : Nat) :
    s.statusWord.getLsbD j =
      if j = 0 then s.seeded
      else if j = 1 then s.cvalid && s.params.hasCache
      else if j = 2 then s.params.hasCache
      else decide (j = 8) := by
  rw [State.statusWord]
  erw [BitVec.getLsbD_append]
  simp only [BitVec.getLsbD_append]
  rcases j with _ | _ | _ | j
  · simp
  · simp
  · simp
  · have version_bit (n : Nat) : Config.version.getLsbD n = decide (n = 0) := by
      simp [Config.version, BitVec.getLsbD_one]
    rw [Bool.eq_iff_iff]
    simp [version_bit]
    omega

theorem State.statusWord_resetOf (p : Params) :
    (State.resetOf p).statusWord = if p.hasCache then 0x104#64 else 0x100#64 := by
  rw [State.statusWord, State.resetOf_params, State.resetOf_cvalid, State.resetOf_seeded]
  cases p.hasCache <;> rfl

theorem State.statusWord_of_seeded {s : State} (hs : s.seeded = true) :
    s.statusWord = if s.params.hasCache then (if s.cvalid then 0x107#64 else 0x105#64) else 0x101#64 := by
  rw [State.statusWord, hs]
  cases s.params.hasCache <;> cases s.cvalid <;> rfl

/-- Beside the three flags the one bit set is bit 8. -/
theorem State.statusWord_bit_of_ge {s : State} {j : Nat} (h3 : 3 ≤ j) (h8 : j ≠ 8) :
    s.statusWord.getLsbD j = false := by
  rw [State.statusWord_bit, if_neg (by omega), if_neg (by omega), if_neg (by omega), decide_eq_false h8]

theorem State.statusWord_version (s : State) : s.statusWord.extractLsb' 8 8 = 0x01#8 := by
  refine BitVec.eq_of_getLsbD_eq fun j hj => ?_
  rw [BitVec.getLsbD_extractLsb', State.statusWord_bit, if_neg (by omega), if_neg (by omega), if_neg (by omega),
    BitVec.getLsbD_one]
  simp [hj]

/-! ### Sequences of commands -/

/-- No command clears `SEEDED` (rule R25). -/
theorem effectOf_seeded (i : Instr) {s : State} (hs : s.seeded = true) : (effectOf i s).seeded = true := by
  cases i with
  | setseed | reset => simp [effectOf, hs, State.seedWith]
  | ctake | cpeek => by_cases hv : s.cvalid <;> simp [effectOf, hs, hv]
  | _ => exact hs

theorem outcomeOf_seeded (i : Instr) {s : State} (hs : s.seeded = true) : (outcomeOf i s).seeded = true := by
  rcases outcomeOf_cases i (s := s) rfl rfl with ⟨-, c, hc, -⟩ | ⟨he, -⟩
  · rw [hc]
    exact hs
  · rw [he]
    exact effectOf_seeded i hs

/-- `SETSEED` is the one writer of the public seed (rule R21). -/
theorem outcomeOf_pseed {i : Instr} (h : isSetseed i = false) (s : State) : (outcomeOf i s).pseed = s.pseed := by
  have not_written : SeedReg.pseed.writtenBy i = false := by
    cases i with
    | setseed => cases h
    | _ => rfl
  exact outcomeOf_reg not_written s

/-- Every command completes with a response. -/
theorem ask_eq_some (i : Instr) (s : State) : ∃ r, ask i s = some (r, (outcomeOf i s).deliver) := by
  obtain ⟨-, ⟨r, hr⟩, -⟩ := outcomeOf_ports i s
  exact ⟨r, by rw [ask_eq, hr]; rfl⟩

/-- Whatever commands but `SETSEED` a sequence holds, it keeps the public seed and leaves the block seeded. -/
theorem askAll_keeps_pseed {cmds : List Instr} (hcmds : ∀ i ∈ cmds, isSetseed i = false) {s : State}
    (hs : s.seeded = true) :
    ∃ rs t, askAll cmds s = some (rs, t) ∧ t.pseed = s.pseed ∧ t.seeded = true := by
  induction cmds generalizing s with
  | nil => exact ⟨[], s, rfl, rfl, hs⟩
  | cons i is ih =>
    obtain ⟨hi, his⟩ := List.forall_mem_cons.1 hcmds
    obtain ⟨r, hr⟩ := ask_eq_some i s
    obtain ⟨rs, t, hall, hpseed, hseeded⟩ := ih his (s := (outcomeOf i s).deliver) (outcomeOf_seeded i hs)
    refine ⟨r :: rs, t, ?_, hpseed.trans (outcomeOf_pseed hi s), hseeded⟩
    simp [askAll, hr, hall]

theorem askAll_append (is js : List Instr) (s : State) :
    askAll (is ++ js) s = (askAll is s).bind fun x => (askAll js x.2).map fun y => (x.1 ++ y.1, y.2) := by
  induction is generalizing s with
  | nil => simp [askAll]
  | cons i is ih =>
    obtain ⟨r, hr⟩ := ask_eq_some i s
    simp only [List.cons_append, askAll, hr, ih]
    cases askAll is (outcomeOf i s).deliver <;> simp [Function.comp_def]

/-- The last response of a sequence is that of its last command. -/
theorem askAll_getLast? {is : List Instr} {i : Instr} {s t u : State} {rs : List Response} {c : Code} {d : Word}
    (hall : askAll is s = some (rs, t)) (hexec : exec i t = .next (u.answer c d)) :
    ((askAll (is ++ [i]) s).map (·.1)).map (·.getLast?) = some (some ⟨c, d⟩) := by
  rw [askAll_append, hall, Option.bind_some, askAll_cons_of_exec hexec]
  simp [askAll]

/-- The state once `SETSEED` has executed and its response is delivered. -/
def State.reseeded (s : State) (raw : Word) : State :=
  ((s.seedWith raw).emptyCache.answer .ok 0#64).deliver

@[simp] theorem State.reseeded_pseed (s : State) (raw : Word) : (s.reseeded raw).pseed = raw := by
  simp [State.reseeded]

@[simp] theorem State.reseeded_iseed (s : State) (raw : Word) :
    (s.reseeded raw).iseed = condition s.params.kCond raw := by
  simp [State.reseeded]

@[simp] theorem State.reseeded_ctr (s : State) (raw : Word) : (s.reseeded raw).ctr = s.params.ctrInit := by
  simp [State.reseeded]

@[simp] theorem State.reseeded_seeded (s : State) (raw : Word) : (s.reseeded raw).seeded = true := by
  simp [State.reseeded]

/-- What follows a `SETSEED` runs on the block it has seeded. -/
theorem askAll_setseed_cons (raw : Word) (is : List Instr) (s : State) :
    askAll (.setseed raw :: is) s = (askAll is (s.reseeded raw)).map fun x => (⟨.ok, 0#64⟩ :: x.1, x.2) :=
  askAll_cons_of_exec (exec_setseed raw s) is

/-! ### The statements -/

/-- Settles O19: no command but `SETSEED` writes the public seed or unseeds the block, so that `GETSEED` finds the
operand. -/
theorem getseedReadsPublicSeed : Obligations.GetseedReadsPublicSeed := by
  refine ⟨fun a s hs => exec_getseed a hs, fun a s hs => exec_of_seedless hs rfl rfl, fun raw a cmds s hcmds => ?_⟩
  obtain ⟨rs, t, hall, hpseed, hseeded⟩ := askAll_keeps_pseed hcmds (s.reseeded_seeded raw)
  have answered : exec (.getseed a) t = .next (t.answer .ok raw) := by
    rw [exec_getseed a hseeded, hpseed, State.reseeded_pseed]
  exact askAll_getLast? (by rw [askAll_setseed_cons, hall]; rfl) answered

/-- Settles O16: `NOP` meets no test, and the all-zero word decodes to it. -/
theorem nopDoesNothing : Obligations.NopDoesNothing :=
  ⟨fun _ _ => exec_eq_outcome _ _, by decide⟩

/-- Settles O17: `STATUS` meets no test, and its word has the layout of `State.statusWord_bit`. -/
theorem statusReadsTheStatusWord : Obligations.StatusReadsTheStatusWord :=
  ⟨fun _ _ => exec_eq_outcome _ _,
    fun s => ⟨s.statusWord_bit 0, s.statusWord_bit 1, s.statusWord_bit 2, s.statusWord_version,
      fun _ h3 _ => State.statusWord_bit_of_ge h3 (by omega),
      fun _ h16 _ => State.statusWord_bit_of_ge (by omega) (by omega)⟩,
    State.statusWord_resetOf, fun _ => State.statusWord_of_seeded⟩

/-- Settles O20: `SETSEED 0` leaves the pre-seed of raw seed 0 in `ISEED`, and `GETISEED` answers it. -/
theorem getiseedReadsInternalSeed : Obligations.GetiseedReadsInternalSeed := by
  refine ⟨fun a s hs => exec_getiseed a hs, fun a s hs => exec_of_seedless hs rfl rfl, fun a s => ?_⟩
  rw [askAll_setseed_cons, askAll_cons_of_exec (exec_getiseed a (s.reseeded_seeded 0#64))]
  simp [askAll, condition_zero]

/-- Settles O21: `exec_setctr`; the counter it writes is the one that `GETCTR` answers. -/
theorem setctrWritesTheCounter : Obligations.SetctrWritesTheCounter := by
  refine ⟨fun c s hs => exec_setctr c hs, fun c s hs => exec_of_seedless hs rfl rfl, fun a s hs => ?_⟩
  rw [askAll_cons_of_exec (exec_setctr 0x100#64 hs), askAll_cons_of_exec (exec_getctr a (by simpa using hs))]
  rfl

/-- Settles O22: three draws after `SETSEED` advance the counter from `CTR_INIT` by 3. -/
theorem getctrReadsTheCounter : Obligations.GetctrReadsTheCounter := by
  refine ⟨fun a s hs => exec_getctr a hs, fun a s hs => exec_of_seedless hs rfl rfl, fun raw a s => ?_⟩
  have draws : ∀ i ∈ List.replicate 3 (Instr.nextint a), IsDraw i := fun i hi =>
    ⟨a, .inl (List.eq_of_mem_replicate hi)⟩
  obtain ⟨rs, t, hall, -, hseeded, hctr⟩ := askAll_draws draws (s.reseeded_seeded raw)
  have answered : exec (.getctr a) t = .next (t.answer .ok (s.params.ctrInit + 3#64)) := by
    rw [exec_getctr a hseeded, hctr, State.reseeded_ctr, List.length_replicate]
  exact askAll_getLast? (is := .setseed raw :: List.replicate 3 (.nextint a))
    (by rw [askAll_setseed_cons, hall]; rfl) answered

/-- Settles O23: the fields of the state that `exec_reset` names; with `CVALID` 0 the content of `CACHE` does not count
for state equality. -/
theorem resetRestoresTheSentinel : Obligations.ResetRestoresTheSentinel := by
  refine ⟨fun a s hs => ⟨_, exec_reset a hs, ?_⟩, fun a s hs => exec_of_seedless hs rfl rfl⟩
  simp +contextual [SameState, hs]

end Sys2Proof.Machine
end

section
/-! SUPPORT. The cached-sample register commands (44_cache_commands.md): the two refusals of rule R69 that they can meet,
the rule of each once it is admitted, and any number of peeks. -/

namespace Sys2Proof.Machine

/-! ### Refused, and admitted -/

theorem exec_of_missing {i : Instr} {s : State} (hc : s.params.hasCache = false) (hi : i.isCache = true) :
    exec i s = .next (s.answer .illegal 0#64) := by
  rw [exec_eq_outcome, outcomeOf_of_missing (by simp [Instr.wellFormed, hi, hc])]

/-- On a block with the register every command passes the first test of rule R69. -/
theorem wellFormed_of_present {p : Params} (hc : p.hasCache = true) (i : Instr) : i.wellFormed p ≠ false := by
  simp [Instr.wellFormed, hc]

theorem exec_of_present_unseeded {i : Instr} {s : State} (hc : s.params.hasCache = true) (hs : s.seeded = false)
    (hn : i.needsSeed = true) : exec i s = .next (s.answer .unseeded 0#64) := by
  rw [exec_eq_outcome, outcomeOf_of_unseeded (wellFormed_of_present hc i) ⟨hn, hs⟩]

theorem exec_of_present_seeded {s : State} (hc : s.params.hasCache = true) (hs : s.seeded = true) (i : Instr) :
    exec i s = .next (effectOf i s) := by
  rw [exec_eq_outcome, outcomeOf_of_admitted (wellFormed_of_present hc i) (by simp [hs])]

/-! ### Responses -/

/-- The responses to a sequence begin with the response to its first command. -/
theorem askAll_responses_cons {i : Instr} {is : List Instr} {s t : State} {c : Code} {d : Word} {rs : List Response}
    (first : exec i s = .next (t.answer c d)) (rest : (askAll is (t.answer c d).deliver).map (·.1) = some rs) :
    (askAll (i :: is) s).map (·.1) = some (⟨c, d⟩ :: rs) := by
  obtain ⟨x, hx, rfl⟩ := Option.map_eq_some_iff.1 rest
  rw [askAll_cons_of_exec first, hx]
  rfl

/-! ### The three rules on a seeded block with the register -/

section Admitted
variable {s : State} (hc : s.params.hasCache = true) (hs : s.seeded = true)
include hc hs

theorem exec_cput (v : Word) : exec (.cput v) s = .next ((s.putCache v).answer .ok 0#64) :=
  exec_of_present_seeded hc hs _

theorem exec_ctake_held (a : Word) (hv : s.cvalid = true) :
    exec (.ctake a) s = .next (s.emptyCache.answer .ok s.cache) := by
  rw [exec_of_present_seeded hc hs, effectOf, if_pos hv]

theorem exec_ctake_empty (a : Word) (hv : s.cvalid = false) :
    exec (.ctake a) s = .next (s.answer .empty 0#64) := by
  rw [exec_of_present_seeded hc hs, effectOf, if_neg (by simp [hv])]

theorem exec_cpeek_held (a : Word) (hv : s.cvalid = true) :
    exec (.cpeek a) s = .next (s.answer .ok s.cache) := by
  rw [exec_of_present_seeded hc hs, effectOf, if_pos hv]

theorem exec_cpeek_empty (a : Word) (hv : s.cvalid = false) :
    exec (.cpeek a) s = .next (s.answer .empty 0#64) := by
  rw [exec_of_present_seeded hc hs, effectOf, if_neg (by simp [hv])]

/-! ### Sequences on a block that holds a sample -/

/-- Collecting empties the cache, so that the second of two finds no sample. -/
theorem askAll_ctake_twice (a : Word) (hv : s.cvalid = true) :
    (askAll [.ctake a, .ctake a] s).map (·.1) = some [⟨.ok, s.cache⟩, ⟨.empty, 0#64⟩] := by
  have second := exec_ctake_empty (s := (s.emptyCache.answer .ok s.cache).deliver) (by simpa using hc)
    (by simpa using hs) a (by simp)
  exact askAll_responses_cons (exec_ctake_held hc hs a hv) (askAll_responses_cons second rfl)

/-- A peek leaves the payload where it is for the next one. -/
theorem askAll_cpeeks (a : Word) (hv : s.cvalid = true) (n : Nat) :
    (askAll (List.replicate n (.cpeek a)) s).map (·.1) = some (List.replicate n ⟨.ok, s.cache⟩) := by
  induction n generalizing s with
  | zero => rfl
  | succ n ih => exact askAll_responses_cons (exec_cpeek_held hc hs a hv) (ih hc hs hv)

end Admitted

/-- The state once `CPUT` has executed on a seeded block with the register and its response is delivered. -/
def State.deposited (s : State) (v : Word) : State := ((s.putCache v).answer .ok 0#64).deliver

/-! ### The statements -/

/-- Settles O28: `exec_cput`, which asks nothing of `CVALID`, and the two refusals. -/
theorem cputDepositsThePayload : Obligations.CputDepositsThePayload :=
  ⟨fun v _ hc hs => exec_cput hc hs v, fun _ _ hc hs => exec_of_present_unseeded hc hs rfl,
    fun _ _ hc => exec_of_missing hc rfl⟩

/-- Settles O29: the fields of the state that `exec_ctake_held` names, and `askAll_ctake_twice` once `CPUT` has left a
sample. -/
theorem ctakeCollectsTheSample : Obligations.CtakeCollectsTheSample := by
  refine ⟨fun a s hc hs hv => ⟨_, exec_ctake_held hc hs a hv, ?_⟩, fun a s hc hs hv => exec_ctake_empty hc hs a hv,
    fun a s hc hs => exec_of_present_unseeded hc hs rfl, fun a s hc => exec_of_missing hc rfl,
    fun v a s hc hs => ?_⟩
  · simp
  · exact askAll_responses_cons (exec_cput hc hs v) (askAll_ctake_twice (s := s.deposited v) hc hs a rfl)

/-- Settles O30: `exec_cpeek_held`, and `askAll_cpeeks` once `CPUT` has left a sample. -/
theorem cpeekReadsTheSample : Obligations.CpeekReadsTheSample := by
  refine ⟨fun a s hc hs hv => exec_cpeek_held hc hs a hv, fun a s hc hs hv => exec_cpeek_empty hc hs a hv,
    fun a s hc hs => exec_of_present_unseeded hc hs rfl, fun a s hc => exec_of_missing hc rfl,
    fun v a s n hc hs => ?_⟩
  exact askAll_responses_cons (exec_cput hc hs v) (askAll_cpeeks (s := s.deposited v) hc hs a rfl n)

end Sys2Proof.Machine
end

section
/-! SUPPORT. Completion codes (60_exceptions.md): the code of every command in every state, and that a command that
completes with any code but `OK` leaves the block as it was. -/

namespace Sys2Proof.Machine

/-! ### `EMPTY`, the one refusal among the commands' own effects -/

/-- The opcodes of rules R147 and R148 are those of `CTAKE` and `CPEEK` alone. -/
theorem exists_ctake_or_cpeek_of_op {i : Instr} (h : i.op = 0x31#8 ∨ i.op = 0x32#8) :
    ∃ a, i = .ctake a ∨ i = .cpeek a := by
  cases i with
  | ctake a => exact ⟨a, .inl rfl⟩
  | cpeek a => exact ⟨a, .inr rfl⟩
  | _ => simp [Instr.op] at h

/-- The command collects or peeks, and no sample is cached. -/
abbrev FindsNoSample (i : Instr) (s : State) : Prop := s.cvalid = false ∧ (i.op = 0x31#8 ∨ i.op = 0x32#8)

theorem FindsNoSample.needsSeed {i : Instr} {s : State} (h : FindsNoSample i s) : i.needsSeed = true := by
  obtain ⟨a, rfl | rfl⟩ := exists_ctake_or_cpeek_of_op h.2
  · rfl
  · rfl

theorem FindsNoSample.effectOf_eq {i : Instr} {s : State} (h : FindsNoSample i s) :
    effectOf i s = s.answer .empty 0#64 := by
  obtain ⟨hv, hop⟩ := h
  obtain ⟨a, rfl | rfl⟩ := exists_ctake_or_cpeek_of_op hop
  · simp [effectOf, hv]
  · simp [effectOf, hv]

theorem effectOf_ok {i : Instr} {s : State} (h : ¬FindsNoSample i s) :
    ∃ (t : State) (d : Word), effectOf i s = t.answer .ok d := by
  cases i with
  | ctake | cpeek =>
    have held : s.cvalid = true := by simpa [FindsNoSample, Instr.op] using h
    exact ⟨_, _, if_pos held⟩
  | _ => exact ⟨_, _, rfl⟩

/-! ### The code of a command (rules R200, R204) -/

/-- The code that a command completes with, in the priority of rule R204. -/
def completionCode (i : Instr) (s : State) : Code :=
  if i.wellFormed s.params = false then .illegal
  else if i.needsSeed = true ∧ s.seeded = false then .unseeded
  else if FindsNoSample i s then .empty
  else .ok

theorem completionCode_eq_illegal {i : Instr} {s : State} :
    completionCode i s = .illegal ↔ i.isCache = true ∧ s.params.hasCache = false := by
  have missing : i.wellFormed s.params = false ↔ i.isCache = true ∧ s.params.hasCache = false := by
    simp [Instr.wellFormed]
  rw [← missing, completionCode]
  split_ifs with hw <;> simp [hw]

theorem completionCode_eq_unseeded {i : Instr} {s : State} :
    completionCode i s = .unseeded ↔ i.wellFormed s.params = true ∧ i.needsSeed = true ∧ s.seeded = false := by
  rw [completionCode]
  split_ifs with hw hn he
  · simp [hw]
  · simp [hw, hn]
  · simpa [hw] using hn
  · simpa [hw] using hn

/-- `CTAKE` and `CPEEK` need a seed, so that `EMPTY` is left to the seeded block. -/
theorem completionCode_eq_empty {i : Instr} {s : State} :
    completionCode i s = .empty ↔ i.wellFormed s.params = true ∧ s.seeded = true ∧ FindsNoSample i s := by
  rw [completionCode]
  split_ifs with hw hn he
  · simp [hw]
  · simp [hn]
  · have seeded : s.seeded = true := by simpa [he.needsSeed] using hn
    simpa [hw, seeded] using he
  · simp [he]

/-! ### A refusal has no effect (rule R202) -/

/-- A command completes with its code, and where that is not `OK` all it does is answer. -/
theorem outcomeOf_eq_answer (i : Instr) (s : State) :
    ∃ (t : State) (d : Word), outcomeOf i s = t.answer (completionCode i s) d
      ∧ (completionCode i s ≠ .ok → t = s ∧ d = 0#64) := by
  rw [completionCode]
  split_ifs with hw hn he
  · exact ⟨s, 0#64, outcomeOf_of_missing hw, fun _ => ⟨rfl, rfl⟩⟩
  · exact ⟨s, 0#64, outcomeOf_of_unseeded hw hn, fun _ => ⟨rfl, rfl⟩⟩
  · exact ⟨s, 0#64, (outcomeOf_of_admitted hw hn).trans he.effectOf_eq, fun _ => ⟨rfl, rfl⟩⟩
  · obtain ⟨t, d, ht⟩ := effectOf_ok he
    exact ⟨t, d, (outcomeOf_of_admitted hw hn).trans ht, fun h => absurd rfl h⟩

/-- `outcomeOf_eq_answer` of every command word, the reserved opcodes included. -/
theorem execWord_eq_answer (w : CommandWord) (s : State) :
    ∃ (t : State) (c : Code) (d : Word), execWord w s = .next (t.answer c d) ∧ (c ≠ .ok → t = s ∧ d = 0#64) := by
  rcases execWord_cases w s with ⟨i, -, hexec⟩ | ⟨-, hexec⟩
  · obtain ⟨t, d, ht, refused⟩ := outcomeOf_eq_answer i s
    exact ⟨t, _, d, by rw [hexec, ht], refused⟩
  · exact ⟨s, .illegal, 0#64, hexec, fun _ => ⟨rfl, rfl⟩⟩

/-! ### The response word (rule R66) -/

theorem Code.bits_le (c : Code) : c.bits.toNat ≤ 3 := by
  cases c <;> decide

theorem Response.word_code (r : Response) : r.word.extractLsb' 64 4 = r.code.bits := BitVec.extractLsb'_append_eq_left

theorem Response.word_data (r : Response) : r.word.extractLsb' 0 64 = r.data := BitVec.extractLsb'_append_eq_right

/-! ### The statements -/

/-- Settles O33: the response carries `completionCode`, whose three refusals have an equivalence each. -/
theorem completionCodes : Obligations.CompletionCodes := by
  refine ⟨fun i s => ?_, fun w s e he => execWord_of_error he s, rfl, rfl, rfl, rfl, Code.bits_le,
    fun r => ⟨r.word_code, r.word_data⟩⟩
  obtain ⟨t, d, ht, refused⟩ := outcomeOf_eq_answer i s
  refine ⟨_, ⟨completionCode i s, d⟩, exec_eq_outcome i s, by rw [ht, State.answer_rsp],
    completionCode_eq_illegal, completionCode_eq_unseeded, completionCode_eq_empty, fun hcode => ?_⟩
  obtain ⟨rfl, rfl⟩ := refused hcode
  exact ⟨rfl, ht⟩

/-- Settles O34: the code and the data of the response are those of `execWord_eq_answer`. -/
theorem refusedCommandChangesNothing : Obligations.RefusedCommandChangesNothing := by
  intro w s t r hexec hrsp hcode
  obtain ⟨u, c, d, hu, refused⟩ := execWord_eq_answer w s
  obtain rfl : u.answer c d = t := by simpa [hu] using hexec
  obtain rfl : ⟨c, d⟩ = r := by simpa using hrsp
  obtain ⟨rfl, rfl⟩ := refused hcode
  exact ⟨rfl, rfl⟩

end Sys2Proof.Machine
end

section
/-! SUPPORT. Encoding (30_encoding.md): the opcode map is complete and sound, so that decoding and encoding are inverse,
and an operand that a command does not take has no effect. -/

namespace Sys2Proof.Machine

/-! ### The opcode map in both directions -/

/-- The command with another operand. -/
def withOperand : Instr → Word → Instr
  | .nop _ => .nop
  | .status _ => .status
  | .setseed _ => .setseed
  | .getseed _ => .getseed
  | .getiseed _ => .getiseed
  | .setctr _ => .setctr
  | .getctr _ => .getctr
  | .reset _ => .reset
  | .nextint _ => .nextint
  | .nextlong _ => .nextlong
  | .getint _ => .getint
  | .getlong _ => .getlong
  | .cput _ => .cput
  | .ctake _ => .ctake
  | .cpeek _ => .cpeek

theorem withOperand_arg (i : Instr) : withOperand i i.arg = i := by
  cases i <;> rfl

/-- The row of a command's opcode names that command (rule R63). -/
theorem opcodeMap_lookup_op (i : Instr) : opcodeMap.lookup i.op = some (withOperand i) := by
  cases i <;> rfl

/-- A word whose opcode has a row decodes to the row's command over the word's operand. -/
theorem decode_append {op : Opcode} {f : Word → Instr} (h : opcodeMap.lookup op = some f) (a : Word) :
    decode (op ++ a) = .ok (f a) := by
  rw [decode, opField_append, argField_append, h]

theorem decode_encode (i : Instr) : decode (encode i) = .ok i := by
  rw [encode, decode_append (opcodeMap_lookup_op i), withOperand_arg]

/-- A word that decodes has the opcode and the operand of its command. -/
theorem decode_fields {w : CommandWord} {i : Instr} (h : decode w = .ok i) : i.op = opField w ∧ i.arg = argField w := by
  rw [decode] at h
  cases hf : opcodeMap.lookup (opField w) with
  | none => simp [hf] at h
  | some f =>
    obtain rfl : f (argField w) = i := by simpa [hf] using h
    exact opcodeMap_sound (lookup_mem hf) (argField w)

theorem encode_of_decode {w : CommandWord} {i : Instr} (h : decode w = .ok i) : encode i = w := by
  obtain ⟨hop, harg⟩ := decode_fields h
  rw [encode, hop, harg, append_fields]

/-! ### Operands (rule R62) -/

/-- Commands with one opcode differ in their operand alone. -/
theorem eq_withOperand_of_op {i j : Instr} (h : i.op = j.op) : j = withOperand i j.arg := by
  have same_row : withOperand i = withOperand j := by
    simpa [h, opcodeMap_lookup_op j] using (opcodeMap_lookup_op i).symm
  rw [same_row, withOperand_arg]

theorem exec_withOperand {i : Instr} (h : i.takesOperand = false) (a : Word) (s : State) :
    exec (withOperand i a) s = exec i s := by
  cases i with
  | setseed | setctr | getint | getlong | cput => cases h
  | _ => rfl

/-! ### The statements -/

/-- Settles O2: `decode_encode`, whatever the parameters, and `encode_of_decode`. -/
theorem decodeAndEncodeAgree : Obligations.DecodeAndEncodeAgree :=
  ⟨fun _ i _ => decode_encode i, decode_encode, fun _ _ => encode_of_decode⟩

/-- Settles O1: each of the 15 rows is read by `decode_append`, and the written-out words are checked one by one. -/
theorem opcodeMapDecodes : Obligations.OpcodeMapDecodes := by
  refine ⟨fun op a => ⟨opField_append op a, argField_append op a⟩, fun a => ?_, fun i => ?_, by decide⟩
  · refine ⟨?_, ?_, ?_, ?_, ?_, ?_, ?_, ?_, ?_, ?_, ?_, ?_, ?_, ?_, ?_⟩ <;> exact decode_append rfl a
  · cases i <;> simp [Instr.needsSeed, Instr.op]

/-- Settles O4: `eq_withOperand_of_op` and `exec_withOperand`; the assembler's rows without operand are checked one by
one. -/
theorem unusedOperandIsIgnored : Obligations.UnusedOperandIsIgnored := by
  refine ⟨argField_append, fun _ => rfl, fun i => ?_, fun i j s hop hi => ?_, by decide⟩
  · cases i <;> simp [Instr.takesOperand, Instr.op]
  · rw [eq_withOperand_of_op hop, exec_withOperand hi]

end Sys2Proof.Machine
end

section
/-! SUPPORT. The invariant and the handshake (20_memory.md section 2): what a command keeps of the invariant, then what
each of the five forms of an edge keeps, and the handshake as equations of `step`. -/

namespace Sys2Proof.Machine

/-! ### The invariant's clauses on registers and flags -/

/-- The invariant without the ports: rules R26, R32 and R149. -/
structure State.RegInv (s : State) : Prop where
  seeded_of_cvalid : s.cvalid = true → s.seeded = true
  conditioned : s.seeded = true → s.iseed = condition s.params.kCond s.pseed
  empty_of_missing : s.params.hasCache = false → s.cvalid = false

/-- The three clauses see what the functional model sees. -/
theorem State.RegInv.of_quiet {s t : State} (h : s.RegInv) (hq : t.quiet = s.quiet) : t.RegInv := by
  obtain ⟨hparams, hpseed, hiseed, -, -, hcvalid, hseeded, -⟩ := (State.mk.injEq ..).mp hq
  exact ⟨by rw [hcvalid, hseeded]; exact h.seeded_of_cvalid,
    by rw [hseeded, hiseed, hpseed, hparams]; exact h.conditioned,
    by rw [hcvalid, hparams]; exact h.empty_of_missing⟩

/-- An admitted cache command finds the register. -/
theorem present_of_wellFormed {i : Instr} {p : Params} (hi : i.isCache = true) (hw : i.wellFormed p ≠ false) :
    p.hasCache = true := by
  simpa [Instr.wellFormed, hi] using hw

/-- The effect of an admitted command: `SETSEED` establishes the three clauses, the others carry them over; `CPUT` sets
`CVALID` on a seeded block with the register. -/
theorem effectOf_regInv {i : Instr} {s : State} (hw : i.wellFormed s.params ≠ false)
    (hn : ¬(i.needsSeed = true ∧ s.seeded = false)) (h : s.RegInv) : (effectOf i s).RegInv := by
  obtain ⟨hseeded, hcond, hempty⟩ := h
  cases i with
  | setseed raw => constructor <;> simp [effectOf]
  | reset a =>
    constructor
    · simp [effectOf]
    · simpa [effectOf] using hcond
    · simp [effectOf]
  | cput v =>
    have present : s.params.hasCache = true := present_of_wellFormed rfl hw
    have seeded : s.seeded = true := by simpa [Instr.needsSeed] using hn
    exact ⟨fun _ => seeded, hcond, fun missing => by simp [effectOf, present] at missing⟩
  | ctake a =>
    by_cases hv : s.cvalid = true
    · constructor
      · simp [effectOf, hv]
      · simpa [effectOf, hv] using hcond
      · simp [effectOf, hv]
    · rw [effectOf, if_neg hv]
      exact ⟨hseeded, hcond, hempty⟩
  | cpeek a =>
    rw [effectOf]
    split <;> exact ⟨hseeded, hcond, hempty⟩
  | _ => exact ⟨hseeded, hcond, hempty⟩

theorem outcomeOf_regInv (i : Instr) {s : State} (h : s.RegInv) : (outcomeOf i s).RegInv := by
  rw [outcomeOf]
  split_ifs with hw hn
  · exact h.of_quiet rfl
  · exact h.of_quiet rfl
  · exact effectOf_regInv hw hn h

/-! ### The invariant -/

/-- The invariant in three parts: registers, ports, and the data of a refusal (rule R68). -/
theorem inv_iff (s : State) : s.inv ↔
    s.RegInv ∧ (s.flight = none ∨ s.rsp = none) ∧ ∀ r, s.rsp = some r → r.code ≠ .ok → r.data = 0#64 := by
  constructor
  · rintro ⟨hseeded, hcond, hempty, hports, hdata⟩
    exact ⟨⟨hseeded, hcond, hempty⟩, hports, fun r hr => by simpa only [hr] using hdata⟩
  · rintro ⟨⟨hseeded, hcond, hempty⟩, hports, hdata⟩
    refine ⟨hseeded, hcond, hempty, hports, ?_⟩
    cases hr : s.rsp with
    | none => trivial
    | some r => exact hdata r hr

/-- Nothing is asked of the ports of a state without a pending response. -/
theorem inv_of_rsp_none {s : State} (hregs : s.RegInv) (hrsp : s.rsp = none) : s.inv :=
  (inv_iff s).2 ⟨hregs, .inr hrsp, by simp [hrsp]⟩

/-- Everything an executed word leaves: a pending response and nothing in flight. -/
theorem execWord_ports (w : CommandWord) (s : State) :
    ∃ t r, execWord w s = .next t ∧ t.rsp = some r ∧ t.flight = none ∧ t.params = s.params ∧ t.pins = s.pins := by
  rcases execWord_cases w s with ⟨i, -, hexec⟩ | ⟨-, hexec⟩
  · obtain ⟨hflight, ⟨r, hr⟩, hparams, hpins, -⟩ := outcomeOf_ports i s
    exact ⟨_, r, hexec, hr, hflight, hparams, hpins⟩
  · exact ⟨_, _, hexec, rfl, rfl, rfl, rfl⟩

theorem execWord_inv {w : CommandWord} {s t : State} (h : s.RegInv) (hexec : execWord w s = .next t) : t.inv := by
  have regs : t.RegInv := by
    rcases execWord_cases w s with ⟨i, -, hi⟩ | ⟨-, hi⟩
    · obtain rfl : outcomeOf i s = t := by simpa [hi] using hexec
      exact outcomeOf_regInv i h
    · obtain rfl : s.answer .illegal 0#64 = t := by simpa [hi] using hexec
      exact h.of_quiet rfl
  obtain ⟨u, c, d, hu, refused⟩ := execWord_eq_answer w s
  obtain rfl : u.answer c d = t := by simpa [hu] using hexec
  refine (inv_iff _).2 ⟨regs, .inl rfl, fun r hr hcode => ?_⟩
  obtain rfl : ⟨c, d⟩ = r := by simpa using hr
  exact (refused hcode).2

theorem hardReset_inv (s : State) : s.hardReset.inv :=
  inv_of_rsp_none ⟨by simp, by simp, by simp⟩ rfl

/-! ### What every edge keeps -/

/-- Every edge uses up one pin sample and keeps the parameters (rule R222). -/
theorem step_params_pins (s : State) : ∃ t, step s = .next t ∧ t.params = s.params ∧ t.pins = s.pins.tail := by
  rcases step_cases s with ⟨-, h⟩ | ⟨-, -, h⟩ | ⟨-, -, f, -, -, h⟩ | ⟨-, -, f, -, -, h⟩ | ⟨-, -, -, h⟩
  · exact ⟨_, h, rfl, rfl⟩
  · exact ⟨_, h, by split <;> rfl, by split <;> rfl⟩
  · obtain ⟨t, r, hexec, -, -, hparams, hpins⟩ := execWord_ports f.word s.pastEdge
    exact ⟨t, h.trans hexec, hparams, hpins⟩
  · exact ⟨_, h, rfl, rfl⟩
  · exact ⟨_, h, by split <;> rfl, by split <;> rfl⟩

/-- An edge resets, completes a command, or leaves alone what the functional model sees and pends no new response. -/
theorem step_kinds (s : State) :
    step s = .next s.pastEdge.hardReset
      ∨ (∃ f : Flight, step s = execWord f.word s.pastEdge)
      ∨ ∃ t, step s = .next t ∧ t.quiet = s.quiet ∧ (t.rsp = none ∨ t.rsp = s.rsp ∧ t.flight = s.flight) := by
  rcases step_cases s with ⟨-, h⟩ | ⟨-, -, h⟩ | ⟨-, -, f, -, -, h⟩ | ⟨-, hrsp, f, -, -, h⟩ | ⟨-, hrsp, -, h⟩
  · exact .inl h
  · exact .inr (.inr ⟨_, h, by split <;> rfl, by split <;> simp⟩)
  · exact .inr (.inl ⟨f, h⟩)
  · exact .inr (.inr ⟨_, h, rfl, .inl hrsp⟩)
  · exact .inr (.inr ⟨_, h, by split <;> rfl, .inl (by split <;> exact hrsp)⟩)

/-! ### The handshake (rule R42) -/

theorem cmdReady_iff (s : State) : s.cmdReady = true ↔ s.edge.rst = false ∧ s.flight = none ∧ s.rsp = none := by
  simp [State.cmdReady, and_assoc]

theorem rspValid_iff (s : State) : s.rspValid = true ↔ s.edge.rst = false ∧ ∃ r, s.rsp = some r := by
  simp [State.rspValid, Option.isSome_iff_exists]

theorem accepted_iff (s : State) (w : CommandWord) :
    s.accepted = some w ↔ s.edge.cmdValid = true ∧ s.cmdReady = true ∧ s.edge.cmdWord = w := by
  simp [State.accepted, and_assoc]

theorem accepted_of_not_ready {s : State} (h : s.cmdReady = false) : s.accepted = none := by
  simp [State.accepted, h]

theorem accepted_of_ready {s : State} (h : s.cmdReady = true) :
    s.accepted = if s.edge.cmdValid then some s.edge.cmdWord else none := by
  simp [State.accepted, h]

theorem not_ready_of_flight {s : State} {f : Flight} (h : s.flight = some f) : s.cmdReady = false := by
  simp [State.cmdReady, h]

theorem not_ready_of_rsp {s : State} {r : Response} (h : s.rsp = some r) : s.cmdReady = false := by
  simp [State.cmdReady, h]

theorem delivered_of_rsp {s : State} {r : Response} (hrst : s.edge.rst = false) (h : s.rsp = some r) :
    s.delivered = if s.edge.rspReady then some r else none := by
  simp [State.delivered, State.rspValid, hrst, h]

theorem delivered_of_rsp_none {s : State} (h : s.rsp = none) : s.delivered = none := by
  simp [State.delivered, h]

/-! ### The statements -/

/-- Settles O54: a reset edge establishes the invariant, a completed command by `execWord_inv`; the other edges leave
the registers alone and pend no response that was not pending. -/
theorem stepKeepsTheInvariant : Obligations.StepKeepsTheInvariant := by
  intro s t hs hstep
  obtain ⟨hregs, hports, hdata⟩ := (inv_iff s).1 hs
  rcases step_kinds s with h | ⟨f, h⟩ | ⟨u, h, hquiet, hu⟩
  · obtain rfl : s.pastEdge.hardReset = t := by simpa [h] using hstep
    exact hardReset_inv _
  · have past : s.pastEdge.RegInv := hregs.of_quiet rfl
    exact execWord_inv past (h.symm.trans hstep)
  · obtain rfl : u = t := by simpa [h] using hstep
    rcases hu with hrsp | ⟨hrsp, hflight⟩
    · exact inv_of_rsp_none (hregs.of_quiet hquiet) hrsp
    · exact (inv_iff u).2 ⟨hregs.of_quiet hquiet, by rwa [hrsp, hflight], by rwa [hrsp]⟩

/-- Settles O55: after reset both flags are 0 and nothing is pending. -/
theorem resetMeetsTheInvariant : Obligations.ResetMeetsTheInvariant := by
  have reset_inv (p : Params) : (State.resetOf p).inv := inv_of_rsp_none ⟨by simp, by simp, by simp⟩ rfl
  exact ⟨reset_inv, reset_inv Config.params⟩

/-- Settles O57: `step_params_pins`. -/
theorem parametersAreFixed : Obligations.ParametersAreFixed := by
  intro s t hstep
  obtain ⟨u, hu, hparams, -⟩ := step_params_pins s
  obtain rfl : u = t := by simpa [hu] using hstep
  exact hparams

/-- Settles O47: the two phases of a command in flight. -/
theorem stepRunsTheDecodedCommand : Obligations.StepRunsTheDecodedCommand := by
  refine ⟨fun s w i hrst hrsp hf hdec => ?_, fun s w e hrst hrsp hf hdec => ?_, fun s w n hrst hrsp hf => ?_⟩
  · rw [step_of_flight_done hrst hrsp hf rfl, execWord_of_ok hdec]
    rfl
  · rw [step_of_flight_done hrst hrsp hf rfl, execWord_of_error hdec]
    rfl
  · rw [step_of_flight_busy hrst hrsp hf n.succ_ne_zero]
    rfl

/-- Settles O48: acceptance and delivery as the ports show them, beside the idle edge and the edge with a pending
response. -/
theorem handshakeOneCommandAtATime : Obligations.HandshakeOneCommandAtATime := by
  refine ⟨accepted_iff, fun s w h => ?_, fun s hready h => ?_, fun s busy => ?_, fun s hvalid hready => ?_,
    fun s hvalid hready => ?_⟩
  · obtain ⟨hcmd, hready, rfl⟩ := (accepted_iff s w).1 h
    obtain ⟨hrst, hf, hrsp⟩ := (cmdReady_iff s).1 hready
    rw [step_of_idle hrst hrsp hf, if_pos hcmd]
    rfl
  · obtain ⟨hrst, hf, hrsp⟩ := (cmdReady_iff s).1 hready
    have no_command : ¬s.edge.cmdValid = true := by simpa [accepted_of_ready hready] using h
    rw [step_of_idle hrst hrsp hf, if_neg no_command]
    rfl
  · have not_ready : s.cmdReady = false := by
      rcases busy with h | h
      · obtain ⟨f, hf⟩ := Option.isSome_iff_exists.1 h
        exact not_ready_of_flight hf
      · obtain ⟨r, hr⟩ := Option.isSome_iff_exists.1 h
        exact not_ready_of_rsp hr
    exact ⟨not_ready, accepted_of_not_ready not_ready⟩
  · obtain ⟨hrst, r, hr⟩ := (rspValid_iff s).1 hvalid
    rw [step_of_rsp hrst hr, delivered_of_rsp hrst hr, hready]
    exact ⟨rfl, rfl⟩
  · obtain ⟨hrst, r, hr⟩ := (rspValid_iff s).1 hvalid
    rw [step_of_rsp hrst hr, delivered_of_rsp hrst hr, hready, hr]
    exact ⟨rfl, rfl⟩

/-- Settles O50: the fields of `State.resetOf`, and the seed test on an unseeded block. -/
theorem stateAfterHardwareReset : Obligations.StateAfterHardwareReset := by
  refine fun p => ⟨rfl, rfl, rfl, State.statusWord_resetOf p, rfl, rfl, rfl, fun i hn hw => ?_⟩
  rw [ask_map_fst, outcomeOf_of_unseeded (by simp [hw]) ⟨hn, rfl⟩]
  rfl

end Sys2Proof.Machine
end

section
/-! SUPPORT. Frames and two-run properties of the commands: who writes what (10_state.md section 8), states that no
response can tell apart (10_state.md sections 7 and 9), and what a sequence of commands without `SETSEED` keeps. -/

namespace Sys2Proof.Machine

/-! ### Frames -/

/-- A refused command only answers, so a command's frame is that of its effect. -/
theorem outcomeOf_refused_or_effect (i : Instr) (s : State) :
    (∃ c, outcomeOf i s = s.answer c 0#64) ∨ outcomeOf i s = effectOf i s := by
  rcases outcomeOf_cases i (s := s) rfl rfl with ⟨-, c, hc, -⟩ | ⟨he, -⟩
  · exact .inl ⟨c, hc⟩
  · exact .inr he

/-! ### The cached sample (44_cache_commands.md) -/

/-- The state with another payload in `CACHE`. -/
def State.setCache (s : State) (v : Word) : State := { s with cache := v }

theorem State.setCache_emptyCache (s : State) (v : Word) :
    ∃ w, (s.setCache v).emptyCache = s.emptyCache.setCache w := by
  unfold State.emptyCache
  by_cases hc : s.params.hasCache = true
  · exact ⟨_, by rw [if_pos hc, if_pos (by exact hc)]; rfl⟩
  · exact ⟨v, by rw [if_neg hc, if_neg (by exact hc)]; rfl⟩

/-- While `CVALID` is 0 the payload has no effect but on itself. -/
theorem effectOf_setCache {s : State} (hv : s.cvalid = false) (i : Instr) (v : Word) :
    ∃ w, effectOf i (s.setCache v) = (effectOf i s).setCache w := by
  cases i with
  | setseed raw =>
    obtain ⟨w, hw⟩ := (s.seedWith raw).setCache_emptyCache v
    exact ⟨w, congrArg (State.answer · .ok 0#64) hw⟩
  | reset a =>
    obtain ⟨w, hw⟩ := (s.setCtr s.params.ctrInit).setCache_emptyCache v
    exact ⟨w, congrArg (State.answer · .ok 0#64) hw⟩
  | cput w => exact ⟨w, rfl⟩
  | ctake a | cpeek a =>
    have hv' : ¬(s.setCache v).cvalid = true := by simp [State.setCache, hv]
    exact ⟨v, by rw [effectOf, effectOf, if_neg hv', if_neg (by simp [hv])]; rfl⟩
  | _ => exact ⟨v, rfl⟩

theorem outcomeOf_setCache {s : State} (hv : s.cvalid = false) (i : Instr) (v : Word) :
    ∃ w, outcomeOf i (s.setCache v) = (outcomeOf i s).setCache w := by
  rcases outcomeOf_cases i (s := s) (t := s.setCache v) rfl rfl with ⟨-, c, hs, ht⟩ | ⟨hs, ht⟩
  · exact ⟨v, by rw [hs, ht]; rfl⟩
  · rw [hs, ht]
    exact effectOf_setCache hv i v

/-! ### States that no response can tell apart -/

/-- Equal parameters and flags, an equal payload where one is cached, and equal seeds and counter where the block is
seeded: what rules R31 and R34 let a host observe. -/
structure Alike (s t : State) : Prop where
  params : s.params = t.params
  seeded : s.seeded = t.seeded
  cvalid : s.cvalid = t.cvalid
  cache : s.cvalid = true → s.cache = t.cache
  pseed : s.seeded = true → s.pseed = t.pseed
  iseed : s.seeded = true → s.iseed = t.iseed
  ctr : s.seeded = true → s.ctr = t.ctr

theorem Alike.of_same {s t : State} (hp : s.params = t.params) (h : SameState s t) : Alike s t := by
  obtain ⟨hpseed, hiseed, hctr, hcvalid, hcache, hs, ht⟩ := h
  exact ⟨hp, hs.trans ht.symm, hcvalid, hcache, fun _ => hpseed, fun _ => hiseed, fun _ => hctr⟩

theorem Alike.same {s t : State} (h : Alike s t) (hs : s.seeded = true) : SameState s t :=
  ⟨h.pseed hs, h.iseed hs, h.ctr hs, h.cvalid, h.cache, hs, h.seeded ▸ hs⟩

/-- While both flags are 0 the four registers do not count. -/
theorem Alike.of_unseeded {s : State} (hs : s.seeded = false) (hv : s.cvalid = false) (p i c k : Word) :
    Alike { s with pseed := p, iseed := i, ctr := c, cache := k } s :=
  ⟨rfl, rfl, rfl, by simp [hv], by simp [hs], by simp [hs], by simp [hs]⟩

theorem Alike.answer {s t : State} (h : Alike s t) (c d : Code) (x y : Word) : Alike (s.answer c x) (t.answer d y) :=
  ⟨h.params, h.seeded, h.cvalid, h.cache, h.pseed, h.iseed, h.ctr⟩

theorem Alike.deliver {s t : State} (h : Alike s t) : Alike s.deliver t.deliver :=
  ⟨h.params, h.seeded, h.cvalid, h.cache, h.pseed, h.iseed, h.ctr⟩

theorem Alike.emptyCache {s t : State} (h : Alike s t) : Alike s.emptyCache t.emptyCache :=
  ⟨by simpa using h.params, by simpa using h.seeded, by simp, by simp, by simpa using h.pseed,
    by simpa using h.iseed, by simpa using h.ctr⟩

theorem Alike.setCtr {s t : State} (h : Alike s t) (c : Word) : Alike (s.setCtr c) (t.setCtr c) :=
  ⟨h.params, h.seeded, h.cvalid, h.cache, h.pseed, h.iseed, fun _ => rfl⟩

theorem Alike.putCache {s t : State} (h : Alike s t) (v : Word) : Alike (s.putCache v) (t.putCache v) :=
  ⟨h.params, h.seeded, rfl, fun _ => rfl, h.pseed, h.iseed, h.ctr⟩

theorem Alike.statusWord {s t : State} (h : Alike s t) : s.statusWord = t.statusWord := by
  rw [State.statusWord, State.statusWord, h.params, h.cvalid, h.seeded]

/-- `SETSEED` overwrites all that two instances with equal parameters can differ in. -/
theorem alike_seeded {s t : State} (hp : s.params = t.params) (raw : Word) :
    Alike (s.seedWith raw).emptyCache (t.seedWith raw).emptyCache := by
  constructor <;> simp [hp]

/-- Alike states answer an admitted command alike and stay so. -/
theorem effectOf_alike {s t : State} (h : Alike s t) {i : Instr} (hn : ¬(i.needsSeed = true ∧ s.seeded = false)) :
    (effectOf i s).rsp = (effectOf i t).rsp ∧ Alike (effectOf i s) (effectOf i t) := by
  have seeded : i.needsSeed = true → s.seeded = true := by simpa using hn
  cases i with
  | nop a => exact ⟨rfl, h.answer ..⟩
  | status a => exact ⟨by simp [effectOf, h.statusWord], h.answer ..⟩
  | setseed raw => exact ⟨rfl, (alike_seeded h.params raw).answer ..⟩
  | getseed a => exact ⟨by simp [effectOf, h.pseed (seeded rfl)], h.answer ..⟩
  | getiseed a | getint a | getlong a => exact ⟨by simp [effectOf, h.iseed (seeded rfl)], h.answer ..⟩
  | getctr a => exact ⟨by simp [effectOf, h.ctr (seeded rfl)], h.answer ..⟩
  | setctr c => exact ⟨rfl, (h.setCtr c).answer ..⟩
  | reset a =>
    refine ⟨rfl, ?_⟩
    rw [effectOf, effectOf, h.params]
    exact (h.setCtr _).emptyCache.answer ..
  | nextint a | nextlong a =>
    refine ⟨by simp [effectOf, h.iseed (seeded rfl), h.ctr (seeded rfl)], ?_⟩
    rw [effectOf, effectOf, State.advanceCtr, State.advanceCtr, h.ctr (seeded rfl)]
    exact (h.setCtr _).answer ..
  | cput v => exact ⟨rfl, (h.putCache v).answer ..⟩
  | ctake a =>
    rw [effectOf, effectOf, ← h.cvalid]
    split_ifs with hv
    · exact ⟨by simp [h.cache hv], h.emptyCache.answer ..⟩
    · exact ⟨rfl, h.answer ..⟩
  | cpeek a =>
    rw [effectOf, effectOf, ← h.cvalid]
    split_ifs with hv
    · exact ⟨by simp [h.cache hv], h.answer ..⟩
    · exact ⟨rfl, h.answer ..⟩

theorem outcomeOf_alike {s t : State} (h : Alike s t) (i : Instr) :
    (outcomeOf i s).rsp = (outcomeOf i t).rsp ∧ Alike (outcomeOf i s) (outcomeOf i t) := by
  rw [outcomeOf, outcomeOf, ← h.params, ← h.seeded]
  split_ifs with hw hn
  · exact ⟨rfl, h.answer ..⟩
  · exact ⟨rfl, h.answer ..⟩
  · exact effectOf_alike h hn

theorem execWord_alike {s t : State} (h : Alike s t) (w : CommandWord) :
    ∃ u v, execWord w s = .next u ∧ execWord w t = .next v ∧ u.rsp = v.rsp ∧ Alike u v := by
  cases hdec : decode w with
  | ok i =>
    obtain ⟨hrsp, ha⟩ := outcomeOf_alike h i
    exact ⟨_, _, (execWord_of_ok hdec s).trans (exec_eq_outcome i s),
      (execWord_of_ok hdec t).trans (exec_eq_outcome i t), hrsp, ha⟩
  | error e => exact ⟨_, _, execWord_of_error hdec s, execWord_of_error hdec t, rfl, h.answer ..⟩

/-! ### Sequences of commands -/

/-- A sequence runs its first command and goes on from that command's outcome. -/
theorem askAll_cons (i : Instr) (is : List Instr) (s : State) :
    ∃ r, (outcomeOf i s).rsp = some r
      ∧ askAll (i :: is) s = (askAll is (outcomeOf i s).deliver).map fun x => (r :: x.1, x.2) := by
  obtain ⟨-, ⟨r, hr⟩, -⟩ := outcomeOf_ports i s
  exact ⟨r, hr, by rw [askAll, ask_eq, hr]; rfl⟩

/-- Alike states answer every sequence alike. -/
theorem askAll_alike {s t : State} (h : Alike s t) (cmds : List Instr) :
    ∃ rs u v, askAll cmds s = some (rs, u) ∧ askAll cmds t = some (rs, v) ∧ Alike u v := by
  induction cmds generalizing s t with
  | nil => exact ⟨[], s, t, rfl, rfl, h⟩
  | cons i is ih =>
    obtain ⟨hrsp, ha⟩ := outcomeOf_alike h i
    obtain ⟨r, hr, hs⟩ := askAll_cons i is s
    obtain ⟨q, hq, ht⟩ := askAll_cons i is t
    obtain rfl : r = q := by simpa [hr, hq] using hrsp
    obtain ⟨rs, u, v, hu, hv, huv⟩ := ih ha.deliver
    exact ⟨r :: rs, u, v, by rw [hs, hu]; rfl, by rw [ht, hv]; rfl, huv⟩

theorem askAll_responses_alike {s t : State} (h : Alike s t) (cmds : List Instr) :
    (askAll cmds s).map (·.1) = (askAll cmds t).map (·.1) := by
  obtain ⟨rs, u, v, hu, hv, -⟩ := askAll_alike h cmds
  rw [hu, hv]
  rfl

/-- What the stream of a block is generated from: the parameters, both seeds and `SEEDED`. -/
structure SameStream (s t : State) : Prop where
  params : t.params = s.params
  pseed : t.pseed = s.pseed
  iseed : t.iseed = s.iseed
  seeded : t.seeded = s.seeded

theorem outcomeOf_sameStream {i : Instr} (h : isSetseed i = false) (s : State) : SameStream s (outcomeOf i s) := by
  rcases outcomeOf_refused_or_effect i s with ⟨c, hc⟩ | he
  · rw [hc]
    exact ⟨rfl, rfl, rfl, rfl⟩
  · rw [he]
    cases i with
    | setseed => cases h
    | reset => constructor <;> simp [effectOf]
    | ctake | cpeek =>
      rw [effectOf]
      split <;> constructor <;> simp
    | _ => exact ⟨rfl, rfl, rfl, rfl⟩

/-- Commands without `SETSEED` keep what the stream is generated from (rules R21, R22, R25). -/
theorem askAll_sameStream {cmds : List Instr} (hcmds : ∀ i ∈ cmds, isSetseed i = false) (s : State) :
    ∃ rs t, askAll cmds s = some (rs, t) ∧ SameStream s t := by
  induction cmds generalizing s with
  | nil => exact ⟨[], s, rfl, rfl, rfl, rfl, rfl⟩
  | cons i is ih =>
    obtain ⟨hi, his⟩ := List.forall_mem_cons.1 hcmds
    have first := outcomeOf_sameStream hi s
    obtain ⟨r, -, hs⟩ := askAll_cons i is s
    obtain ⟨rs, t, hall, rest⟩ := ih his (outcomeOf i s).deliver
    exact ⟨r :: rs, t, by rw [hs, hall]; rfl, rest.params.trans first.params, rest.pseed.trans first.pseed,
      rest.iseed.trans first.iseed, rest.seeded.trans first.seeded⟩

/-- No command unseeds a block (rule R25). -/
theorem execWord_seeded {w : CommandWord} {s t : State} (hs : s.seeded = true) (h : execWord w s = .next t) :
    t.seeded = true := by
  rcases execWord_cases w s with ⟨i, -, hexec⟩ | ⟨-, hexec⟩
  · obtain rfl : outcomeOf i s = t := by simpa [hexec] using h
    exact outcomeOf_seeded i hs
  · obtain rfl : s.answer .illegal 0#64 = t := by simpa [hexec] using h
    exact hs

theorem askAll_seeded {cmds : List Instr} {s t : State} {rs : List Response} (hs : s.seeded = true)
    (h : askAll cmds s = some (rs, t)) : t.seeded = true := by
  induction cmds generalizing s rs with
  | nil =>
    obtain ⟨-, rfl⟩ : [] = rs ∧ s = t := by simpa [askAll] using h
    exact hs
  | cons i is ih =>
    obtain ⟨r, -, hcons⟩ := askAll_cons i is s
    rw [hcons] at h
    obtain ⟨x, hx, hxt⟩ := Option.map_eq_some_iff.1 h
    obtain ⟨-, rfl⟩ := Prod.mk.inj hxt
    exact ih (s := (outcomeOf i s).deliver) (outcomeOf_seeded i hs) hx

/-- The state once `RESET` has executed on a seeded block and its response is delivered. -/
def State.restarted (s : State) : State := ((s.setCtr s.params.ctrInit).emptyCache.answer .ok 0#64).deliver

/-- After `RESET` a block whose stream is that of a freshly seeded one cannot be told from it. -/
theorem alike_restarted {s t : State} {raw : Word} (h : SameStream (s.reseeded raw) t) :
    Alike (s.reseeded raw) t.restarted := by
  constructor <;> simp [State.reseeded, State.restarted, h.params, h.pseed, h.iseed, h.seeded]

/-! ### Draws and point queries -/

/-- The response of a generation command: `UNSEEDED`, or the data of its effect. -/
theorem ask_response {i : Instr} (hi : i.isCache = false) (hn : i.needsSeed = true) {s : State} {d : Word}
    (h : (effectOf i s).rsp = some ⟨.ok, d⟩) :
    (ask i s).map (·.1) = some (if s.seeded then ⟨.ok, d⟩ else ⟨.unseeded, 0#64⟩) := by
  rw [ask_map_fst]
  cases hs : s.seeded with
  | true => rw [outcomeOf_of_seeded hs hi, h, if_pos rfl]
  | false => rw [outcomeOf_of_seedless hs hi hn]; rfl

theorem ask_getint (p : Word) (s : State) : (ask (.getint p) s).map (·.1) =
    some (if s.seeded then ⟨.ok, zext64 (mix32 s.iseed p)⟩ else ⟨.unseeded, 0#64⟩) := ask_response rfl rfl rfl

theorem ask_getlong (p : Word) (s : State) : (ask (.getlong p) s).map (·.1) =
    some (if s.seeded then ⟨.ok, mix64 s.iseed p⟩ else ⟨.unseeded, 0#64⟩) := ask_response rfl rfl rfl

theorem ask_nextint (a : Word) (s : State) : (ask (.nextint a) s).map (·.1) =
    some (if s.seeded then ⟨.ok, zext64 (mix32 s.iseed s.ctr)⟩ else ⟨.unseeded, 0#64⟩) := ask_response rfl rfl rfl

theorem ask_nextlong (a : Word) (s : State) : (ask (.nextlong a) s).map (·.1) =
    some (if s.seeded then ⟨.ok, mix64 s.iseed s.ctr⟩ else ⟨.unseeded, 0#64⟩) := ask_response rfl rfl rfl

/-- A point query only answers. -/
theorem outcomeOf_query_quiet {i : Instr} {p : Word} (h : i = .getint p ∨ i = .getlong p) (s : State) :
    (outcomeOf i s).quiet = s.quiet := by
  rcases outcomeOf_refused_or_effect i s with ⟨c, hc⟩ | he
  · rw [hc]
    rfl
  · rw [he]
    rcases h with rfl | rfl
    · rfl
    · rfl

/-! ### The statements -/

/-- Settles O36: a refused command only answers, and an admitted one has its effect's frame. -/
theorem whoWritesWhat : Obligations.WhoWritesWhat := by
  intro i s t hexec
  obtain rfl := exec_next hexec
  obtain ⟨hflight, -, hparams, hpins, hlat⟩ := outcomeOf_ports i s
  refine ⟨hparams, hpins, hlat, hflight, ?_⟩
  rcases outcomeOf_refused_or_effect i s with ⟨c, hc⟩ | he
  · rw [hc]
    cases i <;> simp
  · rw [he]
    cases i with
    | ctake | cpeek => by_cases hv : s.cvalid <;> simp [effectOf, hv]
    | _ => simp [effectOf]

/-- Settles O41: `CVALID` as each command's effect leaves it, and `outcomeOf_setCache`. -/
theorem cachedSampleLifetime : Obligations.CachedSampleLifetime := by
  refine ⟨fun i s t hexec hs hc => ?_, fun _ => rfl, fun _ => rfl, fun i s v hv => ?_⟩
  · rw [exec_of_present_seeded hc hs] at hexec
    obtain rfl : effectOf i s = t := by simpa using hexec
    cases i with
    | ctake | cpeek => by_cases hv : s.cvalid <;> simp [effectOf, hv]
    | _ => simp [effectOf]
  · obtain ⟨w, hw⟩ := outcomeOf_setCache hv i v
    refine ⟨_, _, exec_eq_outcome i s, exec_eq_outcome i (s.setCache v), ?_, ?_⟩
    · rw [hw]
      rfl
    · rw [hw]
      rfl

/-- Settles O42: after `SETCTR p` the internal seed is as before and, on a seeded block, the counter is `p`. -/
theorem pointQueryMatchesSequentialDraw : Obligations.PointQueryMatchesSequentialDraw := by
  refine ⟨fun p a s t hexec => ?_, fun p s t hexec => ?_⟩
  · obtain rfl := exec_next hexec
    obtain ⟨-, -, hiseed, hseeded⟩ := outcomeOf_sameStream (i := .setctr p) rfl s
    have hctr : s.seeded = true → (outcomeOf (.setctr p) s).ctr = p := fun hs => by
      rw [outcomeOf_of_seeded hs rfl]
      rfl
    rw [ask_getint, ask_getlong, ask_nextint, ask_nextlong, hseeded, hiseed]
    cases hs : s.seeded with
    | true => simp [hctr hs]
    | false => simp
  · rcases hexec with h | h
    · rw [exec_next h]
      exact outcomeOf_query_quiet (.inl rfl) s
    · rw [exec_next h]
      exact outcomeOf_query_quiet (.inr rfl) s

/-- Settles O43: a point query depends on `SEEDED` and `ISEED` alone. -/
theorem pointQueriesShareTheStream : Obligations.PointQueriesShareTheStream := by
  intro cmds s t rs p hcmds hall
  obtain ⟨rs', t', hall', -, -, hiseed, hseeded⟩ := askAll_sameStream hcmds s
  obtain ⟨-, rfl⟩ : rs' = rs ∧ t' = t := by simpa [hall'] using hall
  rw [ask_getint, ask_getint, ask_getlong, ask_getlong, hiseed, hseeded]
  exact ⟨rfl, rfl⟩

/-- Settles O44: the commands between keep both seeds, and `RESET` restores the counter and empties the cache. -/
theorem resetRestartsTheStream : Obligations.ResetRestartsTheStream := by
  intro raw a cmds more s s1 s2 r1 r2 hcmds h1 h2
  obtain ⟨rs, t, hall, hstream⟩ := askAll_sameStream hcmds (s.reseeded raw)
  have seeded : t.seeded = true := hstream.seeded.trans (s.reseeded_seeded raw)
  have run : askAll (.setseed raw :: cmds ++ [.reset a]) s =
      some (⟨.ok, 0#64⟩ :: rs ++ [⟨.ok, 0#64⟩], t.restarted) := by
    rw [askAll_append, askAll_setseed_cons, hall, Option.map_some, Option.bind_some,
      askAll_cons_of_exec (exec_reset a seeded)]
    rfl
  obtain ⟨-, rfl⟩ : _ ∧ s.reseeded raw = s1 := by
    rw [askAll_setseed_cons] at h1
    simpa [askAll] using h1
  obtain ⟨-, rfl⟩ : _ ∧ t.restarted = s2 := by simpa only [run, Option.some.injEq, Prod.mk.injEq] using h2
  have alike := alike_restarted hstream
  exact ⟨alike.same (s.reseeded_seeded raw), askAll_responses_alike alike more⟩

/-- Settles O45: `SETSEED` makes two instances alike, every sequence keeps them so, and no command unseeds a block. -/
theorem seedErasesHistory : Obligations.SeedErasesHistory := by
  intro raw cmds s t hp
  have alike : Alike (s.reseeded raw) (t.reseeded raw) := ((alike_seeded hp raw).answer ..).deliver
  obtain ⟨rs, u, v, hu, hv, huv⟩ := askAll_alike alike cmds
  refine ⟨⟨.ok, 0#64⟩ :: rs, u, v, ?_, ?_, huv.same (askAll_seeded (s.reseeded_seeded raw) hu)⟩
  · rw [askAll_setseed_cons, hu]
    rfl
  · rw [askAll_setseed_cons, hv]
    rfl

/-- Settles O46: states that are the same are alike, and alike states are the same where one of them is seeded. -/
theorem sameStateSameResponse : Obligations.SameStateSameResponse := by
  intro w s t hp h
  obtain ⟨u, v, hu, hv, hrsp, huv⟩ := execWord_alike (.of_same hp h) w
  obtain ⟨-, -, -, -, -, hs, -⟩ := h
  exact ⟨u, v, hu, hv, hrsp, huv.same (execWord_seeded hs hu)⟩

/-- Settles O51: `Alike.of_unseeded`, for any sequence. -/
theorem unseededRegistersAreUnobservable : Obligations.UnseededRegistersAreUnobservable :=
  fun cmds _ p i c k hs hv => askAll_responses_alike (.of_unseeded hs hv p i c k) cmds

/-- Settles O49: no output is active while `rst` is 1, and the state after the edge has both flags 0. -/
theorem hardwareResetAbandonsEverything : Obligations.HardwareResetAbandonsEverything := by
  intro s hrst
  have not_ready : s.cmdReady = false := by simp [State.cmdReady, hrst]
  have not_valid : s.rspValid = false := by simp [State.rspValid, hrst]
  exact ⟨not_ready, not_valid, accepted_of_not_ready not_ready, by simp [State.delivered, not_valid], _,
    step_of_rst hrst, rfl, rfl, rfl, rfl, rfl, rfl,
    fun cmds p i c k => askAll_responses_alike (.of_unseeded rfl rfl p i c k) cmds⟩

end Sys2Proof.Machine
end

section
/-! SUPPORT. Runs of the ports: edges observed one after the other, the functional model of rule R43 on the words they
accept as a relation that composes, and how long a command in flight and a pending response stay. -/

namespace Sys2Proof.Machine

/-! ### Observing edges -/

theorem observe_succ {k : Nat} {s t : State} {o : Observation} (hstep : step s = .next t) (ho : observe k t = some o) :
    observe (k + 1) s = some
      ⟨s.accepted.toList ++ o.accepted, s.delivered.toList ++ o.delivered, o.state⟩ := by
  rw [observe, hstep]
  simp [ho]

theorem observe_total (k : Nat) (s : State) : ∃ o, observe k s = some o := by
  induction k generalizing s with
  | zero => exact ⟨_, rfl⟩
  | succ k ih =>
    obtain ⟨t, hstep, -⟩ := step_params_pins s
    obtain ⟨o, ho⟩ := ih t
    exact ⟨_, observe_succ hstep ho⟩

theorem observe_succ_silent {k : Nat} {s t : State} {o : Observation} (hstep : step s = .next t)
    (silent : s.accepted = none ∧ s.delivered = none) (ho : observe k t = some o) : observe (k + 1) s = some o := by
  rw [observe_succ hstep ho, silent.1, silent.2]
  rfl

/-- What holds of the coming `k + 1` samples and of an idle host holds at the coming edge and of the `k` samples after
it; past the end of the list the host is idle (log entry 6). -/
theorem forall_pins_succ {P : Pins → Prop} (idle : P Pins.idle) {k : Nat} {s : State}
    (h : ∀ p ∈ s.pins.take (k + 1), P p) : P s.edge ∧ ∀ p ∈ s.pins.tail.take k, P p := by
  rw [State.edge]
  cases hp : s.pins with
  | nil => simpa using idle
  | cons q qs => simpa [hp] using h

theorem edge_of_getElem? {s : State} {q : Pins} (h : s.pins[0]? = some q) : s.edge = q := by
  rw [State.edge, List.headD_eq_head?_getD, List.head?_eq_getElem?, h]
  rfl

/-! ### Commands see nothing of the ports -/

theorem effectOf_quiet (i : Instr) (s : State) :
    (effectOf i s.quiet).deliver = (effectOf i s).quiet ∧ (effectOf i s.quiet).rsp = (effectOf i s).rsp := by
  have emptyCache_quiet (t : State) : t.quiet.emptyCache = t.emptyCache.quiet := by
    unfold State.emptyCache
    rw [State.quiet_params]
    split <;> rfl
  cases i with
  | setseed raw =>
    have effect : effectOf (.setseed raw) s.quiet = (s.seedWith raw).emptyCache.quiet.answer .ok 0#64 :=
      congrArg (State.answer · .ok 0#64) (emptyCache_quiet (s.seedWith raw))
    rw [effect]
    exact ⟨rfl, rfl⟩
  | reset a =>
    have effect : effectOf (.reset a) s.quiet = (s.setCtr s.params.ctrInit).emptyCache.quiet.answer .ok 0#64 :=
      congrArg (State.answer · .ok 0#64) (emptyCache_quiet (s.setCtr s.params.ctrInit))
    rw [effect]
    exact ⟨rfl, rfl⟩
  | ctake a =>
    rw [effectOf, effectOf, State.quiet_cvalid, emptyCache_quiet]
    split <;> exact ⟨rfl, rfl⟩
  | cpeek a =>
    rw [effectOf, effectOf, State.quiet_cvalid]
    split <;> exact ⟨rfl, rfl⟩
  | _ => exact ⟨rfl, rfl⟩

theorem outcomeOf_quiet (i : Instr) (s : State) :
    (outcomeOf i s.quiet).deliver = (outcomeOf i s).quiet ∧ (outcomeOf i s.quiet).rsp = (outcomeOf i s).rsp := by
  rcases outcomeOf_cases i s.quiet_params s.quiet_seeded with ⟨-, c, hs, hq⟩ | ⟨hs, hq⟩
  · rw [hs, hq]
    exact ⟨rfl, rfl⟩
  · rw [hs, hq]
    exact effectOf_quiet i s

/-- A word completed at an edge is a transaction of the functional model. -/
theorem execWord_transact (w : CommandWord) (s : State) :
    ∃ t r, execWord w s = .next t ∧ t.rsp = some r ∧ t.flight = none ∧ t.pins = s.pins
      ∧ transact w s.quiet = some (r, t.quiet) := by
  rcases execWord_cases w s with ⟨i, hdec, hexec⟩ | ⟨⟨e, hdec⟩, hexec⟩
  · obtain ⟨hflight, ⟨r, hr⟩, -, hpins, -⟩ := outcomeOf_ports i s
    obtain ⟨hquiet, hrsp⟩ := outcomeOf_quiet i s
    refine ⟨_, r, hexec, hr, hflight, hpins, ?_⟩
    rw [transact, execWord_of_ok hdec, exec_eq_outcome]
    simp [hrsp, hr, hquiet]
  · exact ⟨_, _, hexec, rfl, rfl, rfl, by rw [transact, execWord_of_error hdec]; rfl⟩

theorem transactAll_append {ws vs : List CommandWord} {s t u : State} {rs qs : List Response}
    (first : transactAll ws s = some (rs, t)) (second : transactAll vs t = some (qs, u)) :
    transactAll (ws ++ vs) s = some (rs ++ qs, u) := by
  induction ws generalizing s rs with
  | nil =>
    obtain ⟨rfl, rfl⟩ : [] = rs ∧ s = t := by simpa [transactAll] using first
    exact second
  | cons w ws ih =>
    simp only [transactAll, List.cons_append] at first ⊢
    cases hw : transact w s with
    | none => simp [hw] at first
    | some x =>
      simp only [hw, Option.map_eq_some_iff] at first
      obtain ⟨y, hy, hyt⟩ := first
      obtain ⟨rfl, rfl⟩ := Prod.mk.inj hyt
      simp [ih hy]

/-! ### The refinement as a relation that composes -/

/-- The accepted word that has not completed. -/
def State.inFlight (s : State) : List CommandWord := s.flight.toList.map (·.word)

/-- From `s` to `t` the ports accept `acc` and deliver `del`: some words `ws` complete as transactions of the functional
model, namely those in flight at `s` and accepted, less those in flight at `t`; their responses are those delivered and
pending at `t`, less those pending at `s`. -/
def Refines (s : State) (acc : List CommandWord) (del : List Response) (t : State) : Prop :=
  ∃ ws rs, s.inFlight ++ acc = ws ++ t.inFlight ∧ transactAll ws s.quiet = some (rs, t.quiet)
    ∧ s.rsp.toList ++ rs = del ++ t.rsp.toList

/-- An edge that completes no command. -/
theorem Refines.of_quiet {s t : State} {acc : List CommandWord} {del : List Response} (hq : t.quiet = s.quiet)
    (hacc : s.inFlight ++ acc = t.inFlight) (hdel : s.rsp.toList = del ++ t.rsp.toList) : Refines s acc del t :=
  ⟨[], [], hacc, by rw [transactAll, hq], by rw [List.append_nil, hdel]⟩

theorem Refines.refl (s : State) : Refines s [] [] s := .of_quiet rfl (List.append_nil _) rfl

theorem Refines.trans {s t u : State} {acc acc' : List CommandWord} {del del' : List Response}
    (first : Refines s acc del t) (second : Refines t acc' del' u) : Refines s (acc ++ acc') (del ++ del') u := by
  obtain ⟨ws, rs, hacc, hws, hdel⟩ := first
  obtain ⟨vs, qs, hacc', hvs, hdel'⟩ := second
  refine ⟨ws ++ vs, rs ++ qs, ?_, transactAll_append hws hvs, ?_⟩
  · rw [← List.append_assoc, hacc, List.append_assoc, hacc', List.append_assoc]
  · rw [← List.append_assoc, hdel, List.append_assoc, hdel', List.append_assoc]

/-- One edge without reset refines, and keeps a command in flight and a pending response apart. -/
theorem step_refines {s : State} (hrst : s.edge.rst = false) (apart : s.flight = none ∨ s.rsp = none) :
    ∃ t, step s = .next t ∧ t.pins = s.pins.tail ∧ Refines s s.accepted.toList s.delivered.toList t
      ∧ (t.flight = none ∨ t.rsp = none) := by
  rcases step_cases s with ⟨h, -⟩ | ⟨-, ⟨r, hr⟩, h⟩ | ⟨-, hrsp, f, hf, -, h⟩ | ⟨-, hrsp, f, hf, -, h⟩ |
    ⟨-, hrsp, hf, h⟩
  · simp [hrst] at h
  · have no_accept := accepted_of_not_ready (not_ready_of_rsp hr)
    have hf : s.flight = none := by simpa [hr] using apart
    rw [no_accept, delivered_of_rsp hrst hr]
    refine ⟨_, h, ?_⟩
    split
    · exact ⟨rfl, .of_quiet rfl (List.append_nil _) (by simp [hr]), .inr rfl⟩
    · exact ⟨rfl, .of_quiet rfl (List.append_nil _) rfl, .inl hf⟩
  · obtain ⟨t, r, hexec, hr, htf, hpins, htransact⟩ := execWord_transact f.word s.pastEdge
    rw [State.pastEdge_quiet] at htransact
    rw [accepted_of_not_ready (not_ready_of_flight hf), delivered_of_rsp_none hrsp]
    refine ⟨t, h.trans hexec, hpins, ⟨[f.word], [r], ?_, ?_, ?_⟩, .inl htf⟩
    · simp [State.inFlight, hf, htf]
    · simp [transactAll, htransact]
    · simp [hrsp, hr]
  · rw [accepted_of_not_ready (not_ready_of_flight hf), delivered_of_rsp_none hrsp]
    exact ⟨_, h, rfl, .of_quiet rfl (by simp [State.inFlight, hf]) (by simp [hrsp]), .inr hrsp⟩
  · rw [accepted_of_ready ((cmdReady_iff s).2 ⟨hrst, hf, hrsp⟩), delivered_of_rsp_none hrsp]
    refine ⟨_, h, ?_⟩
    split
    · exact ⟨rfl, .of_quiet rfl (by simp [State.inFlight, hf]) (by simp [hrsp]), .inr hrsp⟩
    · exact ⟨rfl, .of_quiet rfl (List.append_nil _) (by simp [hrsp]), .inr hrsp⟩

theorem observe_refines {k : Nat} {s : State} (hrst : ∀ p ∈ s.pins.take k, p.rst = false)
    (apart : s.flight = none ∨ s.rsp = none) :
    ∃ o, observe k s = some o ∧ Refines s o.accepted o.delivered o.state
      ∧ (o.state.flight = none ∨ o.state.rsp = none) := by
  induction k generalizing s with
  | zero => exact ⟨_, rfl, .refl s, apart⟩
  | succ k ih =>
    obtain ⟨edge_rst, later_rst⟩ := forall_pins_succ (P := (·.rst = false)) rfl hrst
    obtain ⟨t, hstep, hpins, first, apart'⟩ := step_refines edge_rst apart
    obtain ⟨o, ho, rest, apart''⟩ := ih (by rwa [hpins]) apart'
    exact ⟨_, observe_succ hstep ho, first.trans rest, apart''⟩

/-! ### How long a command and a response stay -/

theorem silent_of_flight {s : State} {f : Flight} (hf : s.flight = some f) (hrsp : s.rsp = none) :
    s.accepted = none ∧ s.delivered = none :=
  ⟨accepted_of_not_ready (not_ready_of_flight hf), delivered_of_rsp_none hrsp⟩

/-- A command in flight with `n` edges left answers at the edge after them. -/
theorem observe_flight {n : Nat} {s : State} {w : CommandWord} (hf : s.flight = some ⟨w, n⟩) (hrsp : s.rsp = none)
    (hrst : ∀ p ∈ s.pins.take (n + 1), p.rst = false) :
    ∃ t r, observe (n + 1) s = some ⟨[], [], t⟩ ∧ t.rsp = some r ∧ t.flight = none ∧ t.pins = s.pins.drop (n + 1) := by
  induction n generalizing s with
  | zero =>
    obtain ⟨edge_rst, -⟩ := forall_pins_succ (P := (·.rst = false)) rfl hrst
    obtain ⟨t, r, hexec, hr, htf, -, hpins⟩ := execWord_ports w s.pastEdge
    have hstep : step s = .next t := (step_of_flight_done edge_rst hrsp hf rfl).trans hexec
    exact ⟨t, r, observe_succ_silent hstep (silent_of_flight hf hrsp) rfl, hr, htf, by simp [hpins]⟩
  | succ n ih =>
    obtain ⟨edge_rst, later_rst⟩ := forall_pins_succ (P := (·.rst = false)) rfl hrst
    have hstep := step_of_flight_busy edge_rst hrsp hf n.succ_ne_zero
    obtain ⟨t, r, ht, hr, htf, hpins⟩ := ih (s := s.pastEdge.work ⟨w, n + 1⟩) rfl hrsp later_rst
    exact ⟨t, r, observe_succ_silent hstep (silent_of_flight hf hrsp) ht, hr, htf, by simp [hpins]⟩

/-- A pending response waits through `n` edges of a host that is not ready, and is delivered at the next. -/
theorem observe_rsp {n : Nat} {s : State} {r : Response} {q : Pins} (hr : s.rsp = some r) (hf : s.flight = none)
    (hwait : ∀ p ∈ s.pins.take n, p.rst = false ∧ p.rspReady = false) (hq : s.pins[n]? = some q)
    (hrst : q.rst = false) (hready : q.rspReady = true) :
    ∃ t, observe (n + 1) s = some ⟨[], [r], t⟩ ∧ t.rsp = none ∧ t.flight = none ∧ t.quiet = s.quiet := by
  induction n generalizing s with
  | zero =>
    obtain rfl := edge_of_getElem? hq
    have hstep := step_of_rsp hrst hr
    rw [if_pos hready] at hstep
    refine ⟨s.pastEdge.deliver, ?_, rfl, hf, rfl⟩
    rw [observe_succ hstep rfl, accepted_of_not_ready (not_ready_of_rsp hr), delivered_of_rsp hrst hr, if_pos hready]
    rfl
  | succ n ih =>
    obtain ⟨⟨edge_rst, not_ready⟩, later⟩ :=
      forall_pins_succ (P := fun p => p.rst = false ∧ p.rspReady = false) ⟨rfl, rfl⟩ hwait
    have hstep := step_of_rsp edge_rst hr
    rw [not_ready] at hstep
    have silent : s.accepted = none ∧ s.delivered = none :=
      ⟨accepted_of_not_ready (not_ready_of_rsp hr), by rw [delivered_of_rsp edge_rst hr, not_ready]; rfl⟩
    obtain ⟨t, ht, hrsp, htf, hquiet⟩ := ih (s := s.pastEdge) hr hf later (by simpa using hq)
    exact ⟨t, observe_succ_silent hstep silent ht, hrsp, htf, hquiet⟩

/-! ### The statements -/

/-- Settles O35: every word completes with a response, every edge has a next state, so any number can be observed. -/
theorem everyStepHasANextState : Obligations.EveryStepHasANextState := by
  refine ⟨fun w s => ?_, fun s => ?_, observe_total⟩
  · obtain ⟨t, r, hexec, hr, hf, -⟩ := execWord_ports w s
    exact ⟨t, r, hexec, hr, hf⟩
  · obtain ⟨t, hstep, -⟩ := step_params_pins s
    exact ⟨t, hstep⟩

/-- Settles O52: `observe_refines` from a state with nothing in flight or pending. -/
theorem portsRefineTheFunctionalModel : Obligations.PortsRefineTheFunctionalModel := by
  intro k s hf hrsp hrst
  obtain ⟨o, ho, ⟨ws, rs, hacc, hws, hdel⟩, apart⟩ := observe_refines hrst (.inl hf)
  have accepted : o.accepted = ws ++ o.state.inFlight := by simpa [State.inFlight, hf] using hacc
  have responses : rs = o.delivered ++ o.state.rsp.toList := by simpa [hrsp] using hdel
  refine ⟨o, ho, ?_⟩
  cases hflight : o.state.flight with
  | none =>
    have all_complete : o.accepted = ws := by simpa [State.inFlight, hflight] using accepted
    rw [all_complete, hws, responses]
  | some f =>
    have none_pending : o.state.rsp = none := by simpa [hflight] using apart
    have all_delivered : rs = o.delivered := by simpa [none_pending] using responses
    exact ⟨none_pending, ws, by simpa [State.inFlight, hflight] using accepted, all_delivered ▸ hws⟩

/-- Settles O53: `observe_flight` and `observe_rsp`. -/
theorem acceptedCommandCompletes : Obligations.AcceptedCommandCompletes := by
  refine ⟨fun n s w hf hrsp hrst => ?_, fun n s r hr hf hwait hready hlen => ?_⟩
  · obtain ⟨t, r, ht, hr, htf, hpins⟩ := observe_flight hf hrsp hrst
    exact ⟨_, r, ht, hr, htf, rfl, rfl, hpins⟩
  · have hq := List.getElem?_eq_getElem hlen
    obtain ⟨t, ht, hrsp, htf, hquiet⟩ := observe_rsp hr hf hwait hq (hready _ hq).1 (hready _ hq).2
    exact ⟨_, ht, rfl, rfl, hrsp, htf, hquiet⟩

end Sys2Proof.Machine
end

section
/-! SUPPORT. What the walk of rule R83 achieves (40_seed_conditioner.md section 2). A round that finds a bit equal to
the target leaves it, and one that finds it different sets it: after `r` rounds every visited bit equals the target,
whatever was found. So the word is the `sweep` of `r` rounds, and the corrections made are the bits in which it differs
from the rotated original. -/

namespace Sys2Proof.Machine

/-! ### Rotations (derived item 1) -/

theorem rotr_iterate_bit (p : Word) (n j i : Nat) (hi : i < 64) :
    ((fun q : Word => rotr q n)^[j] p).getLsbD i = p.getLsbD ((i + n * j) % 64) := by
  induction j generalizing i with
  | zero => simp [Nat.mod_eq_of_lt hi]
  | succ j ih =>
    rw [Function.iterate_succ_apply', rotr_bit _ _ _ hi, ih _ (Nat.mod_lt _ (by decide)), Nat.mod_add_mod,
      Nat.mul_succ, Nat.add_assoc, Nat.add_comm n]

/-! ### The sweep -/

/-- One round without its count: rotate, and set the low bit to the target. -/
def sweepRound (target : Bool) (p : Word) : Word := withBit0 (rotr p Config.condRot) target

/-- `r` rounds. -/
def sweep (target : Bool) (p : Word) (r : Nat) : Word := (sweepRound target)^[r] p

theorem sweep_succ (target : Bool) (p : Word) (r : Nat) :
    sweep target p (r + 1) = withBit0 (rotr (sweep target p r) Config.condRot) target :=
  Function.iterate_succ_apply' ..

/-- Original bit `x` comes to position 0 in rotation `47 x mod 64`, 47 being the inverse of 15; after `r` rounds bit
`i` is original bit `i + 15 r`, so its rotation is `47 i + r`. -/
def visited (r i : Nat) : Bool := decide (1 ≤ (47 * i + r) % 64 ∧ (47 * i + r) % 64 ≤ r)

/-- After `r` rounds the visited bits equal the target and the others are the original's. -/
theorem sweep_bit (target : Bool) (p : Word) {r i : Nat} (hr : r ≤ 63) (hi : i < 64) :
    (sweep target p r).getLsbD i = if visited r i then target else p.getLsbD ((i + 15 * r) % 64) := by
  induction r generalizing i with
  | zero =>
    have not_visited : visited 0 i = false := decide_eq_false (by omega)
    simp [sweep, not_visited, Nat.mod_eq_of_lt hi]
  | succ r ih =>
    rw [sweep_succ, withBit0_bit]
    by_cases h0 : i = 0
    · have hv : visited (r + 1) i = true := decide_eq_true (by omega)
      rw [if_pos h0, hv, if_pos rfl]
    · have hv : visited (r + 1) i = visited r ((i + 15) % 64) := decide_eq_decide.2 (by omega)
      have hpos : ((i + 15) % 64 + 15 * r) % 64 = (i + 15 * (r + 1)) % 64 := by omega
      rw [if_neg h0, rotr_bit _ _ _ hi, Config.condRot, ih (by omega) (Nat.mod_lt _ (by decide)), hv, hpos]

/-! ### Corrections -/

/-- How many bits differ from the original's after `r` rounds. -/
def changed (target : Bool) (p : Word) (r : Nat) : Nat := popcount (sweep target p r ^^^ rotr p (15 * r % 64))

theorem changed_zero (target : Bool) (p : Word) : changed target p 0 = 0 := by
  have unrotated : rotr p 0 = p := BitVec.eq_of_getLsbD_eq fun i hi => by
    rw [rotr_bit _ _ _ hi, Nat.add_zero, Nat.mod_eq_of_lt hi]
  rw [changed, sweep, Function.iterate_zero_apply, unrotated, BitVec.xor_self]
  rfl

/-- The bit that a round finds is the original's, since no earlier rotation visited it (derived item 1). -/
theorem sweep_found_bit (target : Bool) (p : Word) {r : Nat} (hr : r < 63) :
    (rotr (sweep target p r) Config.condRot).getLsbD 0 = p.getLsbD (15 * (r + 1) % 64) := by
  have not_visited : visited r 15 = false := decide_eq_false (by omega)
  rw [rotr_bit _ _ _ (by decide), Config.condRot, sweep_bit target p (by omega) (by decide)]
  simp only [Nat.zero_add, Nat.reduceMod, not_visited, Bool.false_eq_true, if_false]
  congr 1
  omega

/-- A round changes one more bit exactly where it finds a bit other than the target. -/
theorem changed_succ (target : Bool) (p : Word) {r : Nat} (hr : r < 63) :
    changed target p (r + 1) =
      changed target p r + (target ^^ (rotr (sweep target p r) Config.condRot).getLsbD 0).toNat := by
  have differences_move : sweep target p (r + 1) ^^^ rotr p (15 * (r + 1) % 64) =
      withBit0 (rotr (sweep target p r ^^^ rotr p (15 * r % 64)) Config.condRot)
        (target ^^ (rotr (sweep target p r) Config.condRot).getLsbD 0) := by
    refine BitVec.eq_of_getLsbD_eq fun i hi => ?_
    rw [sweep_succ, withBit0_bit, BitVec.getLsbD_xor, withBit0_bit, rotr_bit p _ _ hi]
    split_ifs with h0
    · rw [h0, sweep_found_bit target p hr, Nat.zero_add, Nat.mod_mod]
    · have hpos : (i + 15 * (r + 1) % 64) % 64 = ((i + 15) % 64 + 15 * r % 64) % 64 := by omega
      rw [rotr_bit _ _ _ hi, rotr_bit _ _ _ hi, BitVec.getLsbD_xor, rotr_bit p _ _ (Nat.mod_lt _ (by decide)),
        Config.condRot, hpos]
  have low_bit_same : (rotr (sweep target p r ^^^ rotr p (15 * r % 64)) Config.condRot).getLsbD 0 = false := by
    have found := sweep_found_bit target p hr
    rw [rotr_bit _ _ _ (by decide)] at found ⊢
    rw [BitVec.getLsbD_xor, found, rotr_bit p _ _ (Nat.mod_lt _ (by decide)), Config.condRot]
    have hpos : ((0 + 15) % 64 + 15 * r % 64) % 64 = 15 * (r + 1) % 64 := by omega
    rw [hpos, Bool.xor_self]
  have count := popcount_withBit0 (rotr (sweep target p r ^^^ rotr p (15 * r % 64)) Config.condRot)
    (target ^^ (rotr (sweep target p r) Config.condRot).getLsbD 0)
  rwa [low_bit_same, ← differences_move, popcount_rotr] at count

theorem changed_le (target : Bool) (p : Word) {r : Nat} (hr : r ≤ 63) : changed target p r ≤ r := by
  induction r with
  | zero => rw [changed_zero]
  | succ r ih =>
    rw [changed_succ target p (by omega)]
    exact Nat.add_le_add (ih (by omega)) (Bool.toNat_le _)

/-! ### How many bits equal the target -/

/-- The number of bits equal to the target. -/
def agreeing (target : Bool) (p : Word) : Nat := popcount (if target then p else ~~~p)

theorem agreeing_rotr (target : Bool) (p : Word) : agreeing target (rotr p Config.condRot) = agreeing target p := by
  have ones := popcount_rotr p
  cases target with
  | true => exact ones
  | false =>
    have h := popcount_not (rotr p Config.condRot)
    have h' := popcount_not p
    simp only [agreeing, Bool.false_eq_true, if_false]
    omega

theorem agreeing_withBit0 (target : Bool) (q : Word) :
    agreeing target (withBit0 q target) = agreeing target q + (target ^^ q.getLsbD 0).toNat := by
  have ones := popcount_withBit0 q target
  cases target with
  | true =>
    have flipped : (true ^^ q.getLsbD 0).toNat + (q.getLsbD 0).toNat = 1 := by cases q.getLsbD 0 <;> rfl
    rw [Bool.toNat_true] at ones
    simp only [agreeing, if_true]
    omega
  | false =>
    have h := popcount_not (withBit0 q false)
    have h' := popcount_not q
    rw [Bool.toNat_false] at ones
    simp only [agreeing, Bool.false_eq_true, if_false, Bool.false_xor]
    omega

theorem agreeing_sweep (target : Bool) (p : Word) {r : Nat} (hr : r ≤ 63) :
    agreeing target (sweep target p r) = agreeing target p + changed target p r := by
  induction r with
  | zero => rw [changed_zero, sweep, Function.iterate_zero_apply, Nat.add_zero]
  | succ r ih =>
    rw [sweep_succ, agreeing_withBit0, agreeing_rotr, ih (by omega), changed_succ target p (by omega), Nat.add_assoc]

theorem popcount_of_all_but_one {w : Word} {j : Nat} (h : ∀ i < 64, i ≠ j → w.getLsbD i = true) : 63 ≤ popcount w := by
  rw [popcount_eq]
  calc 63
    _ = (Finset.range 64).card - 1 := rfl
    _ ≤ ((Finset.range 64).erase j).card := Finset.pred_card_le_card_erase
    _ = ∑ i ∈ (Finset.range 64).erase j, 1 := Finset.card_eq_sum_ones _
    _ = ∑ i ∈ (Finset.range 64).erase j, (w.getLsbD i).toNat := Finset.sum_congr rfl fun i hi => by
      obtain ⟨hij, hi⟩ := Finset.mem_erase.1 hi
      rw [h i (Finset.mem_range.1 hi) hij]
      rfl
    _ ≤ ∑ i ∈ Finset.range 64, (w.getLsbD i).toNat :=
      Finset.sum_le_sum_of_subset (Finset.erase_subset ..)

/-- 63 rounds visit every bit but the original's bit 0, which is bit 15 by then. -/
theorem le_agreeing_sweep (target : Bool) (p : Word) : 63 ≤ agreeing target (sweep target p 63) := by
  refine popcount_of_all_but_one (j := 15) fun i hi h15 => ?_
  have hv : visited 63 i = true := decide_eq_true (by omega)
  have hbit : (sweep target p 63).getLsbD i = target := by rw [sweep_bit target p (by decide) hi, hv, if_pos rfl]
  cases target with
  | true => exact hbit
  | false => simp [hbit, hi, -BitVec.getLsbD_eq_getElem]

/-! ### The walk is a sweep -/

theorem withBit0_of_eq {q : Word} {b : Bool} (h : q.getLsbD 0 = b) : withBit0 q b = q := by
  refine BitVec.eq_of_getLsbD_eq fun i _ => ?_
  rw [withBit0_bit]
  split_ifs with h0
  · rw [h0, h]
  · rfl

/-- After `n` rounds the walk has swept `r`, which is `n` unless its corrections were made before. -/
theorem walkRound_iterate (target : Bool) (p : Word) (k : Nat) {n : Nat} (hn : n ≤ 63) :
    ∃ r m, (walkRound target)^[n] (p, k) = (sweep target p r, m) ∧ r ≤ n ∧ changed target p r + m = k
      ∧ (m ≠ 0 → r = n) := by
  induction n with
  | zero => exact ⟨0, k, rfl, le_refl 0, by rw [changed_zero, Nat.zero_add], fun _ => rfl⟩
  | succ n ih =>
    obtain ⟨r, m, hstate, hrn, hcount, hstop⟩ := ih (by omega)
    rw [Function.iterate_succ_apply', hstate]
    cases m with
    | zero => exact ⟨r, 0, walkRound_zero .., by omega, hcount, by simp⟩
    | succ m =>
      obtain rfl : r = n := hstop m.succ_ne_zero
      have more := changed_succ target p hn
      by_cases hbit : (rotr (sweep target p r) Config.condRot).getLsbD 0 = target
      · have same : changed target p (r + 1) = changed target p r := by
          rw [more, hbit, Bool.xor_self]
          rfl
        exact ⟨r + 1, m + 1, by rw [walkRound_of_match hbit, sweep_succ, withBit0_of_eq hbit], le_refl _,
          by rw [same, hcount], fun _ => rfl⟩
      · have one_more : changed target p (r + 1) = changed target p r + 1 := by
          rw [more, Bool.eq_not.2 hbit, Bool.xor_not_self]
          rfl
        exact ⟨r + 1, m, by rw [walkRound_of_mismatch hbit, sweep_succ], le_refl _, by omega, fun _ => rfl⟩

/-- The bits that equal the target are as many fewer than 32 as the deviation. -/
theorem agreeing_add_deviation (p : Word) :
    agreeing (decide (deviation p < 0)) p + (deviation p).natAbs = 32 := by
  have both := popcount_not p
  rw [deviation_eq, agreeing]
  split_ifs with hlow
  · have := of_decide_eq_true hlow
    omega
  · have : ¬(popcount p : Int) - 32 < 0 := by simpa using hlow
    omega

/-- Outside the threshold `BALANCE` sweeps until as many bits are changed as the deviation; 63 rounds would change 31
more. -/
theorem balance_eq_sweep {p : Word} (far : Config.condThreshold < (deviation p).natAbs) :
    ∃ r ≤ 63, balance p = sweep (decide (deviation p < 0)) p r
      ∧ changed (decide (deviation p < 0)) p r = (deviation p).natAbs := by
  generalize htarget : decide (deviation p < 0) = target
  obtain ⟨r, m, hstate, hr, hcount, hstop⟩ := walkRound_iterate target p (deviation p).natAbs (le_refl 63)
  have start : agreeing target p + (deviation p).natAbs = 32 := htarget ▸ agreeing_add_deviation p
  have all_made : m = 0 := by
    by_contra hm
    obtain rfl := hstop hm
    have full := le_agreeing_sweep target p
    rw [agreeing_sweep target p (le_refl 63)] at full
    omega
  refine ⟨r, hr, ?_, by omega⟩
  rw [balance_of_far far, htarget, walk_eq_iterate]
  exact congrArg Prod.fst hstate

theorem popcount_balance_of_far {p : Word} (far : Config.condThreshold < (deviation p).natAbs) :
    popcount (balance p) = 32 := by
  obtain ⟨r, hr, hbal, hcount⟩ := balance_eq_sweep far
  have start := agreeing_add_deviation p
  have final := agreeing_sweep (decide (deviation p < 0)) p hr
  rw [hcount, start, ← hbal, agreeing] at final
  split_ifs at final
  · exact final
  · have both := popcount_not (balance p)
    omega

theorem popcount_balance (p : Word) : 30 ≤ popcount (balance p) ∧ popcount (balance p) ≤ 34 := by
  by_cases far : Config.condThreshold < (deviation p).natAbs
  · rw [popcount_balance_of_far far]
    decide
  · have near := Nat.le_of_not_lt far
    rw [balance_of_near near]
    rw [deviation_eq, Config.condThreshold] at near
    omega

/-! ### Complement (section 4) -/

theorem rotr_not (p : Word) (n : Nat) : rotr (~~~p) n = ~~~(rotr p n) := by
  refine BitVec.eq_of_getLsbD_eq fun i hi => ?_
  rw [rotr_bit _ _ _ hi, BitVec.getLsbD_not, BitVec.getLsbD_not, rotr_bit _ _ _ hi, decide_eq_true hi,
    decide_eq_true (Nat.mod_lt _ (by decide))]

theorem withBit0_not (q : Word) (b : Bool) : withBit0 (~~~q) (!b) = ~~~(withBit0 q b) := by
  refine BitVec.eq_of_getLsbD_eq fun i hi => ?_
  rw [withBit0_bit, BitVec.getLsbD_not, BitVec.getLsbD_not, withBit0_bit, decide_eq_true hi, Bool.true_and,
    Bool.true_and]
  split_ifs <;> rfl

theorem walk_not (target : Bool) (n k : Nat) (p : Word) : walk (!target) n k (~~~p) = ~~~(walk target n k p) := by
  induction n generalizing k p with
  | zero => rfl
  | succ n ih =>
    cases k with
    | zero => rfl
    | succ k =>
      have low_bit (q : Word) : (~~~q).getLsbD 0 = !q.getLsbD 0 := by
        rw [BitVec.getLsbD_not]
        rfl
      simp only [walk, rotr_not, low_bit, Bool.not_inj_iff, withBit0_not, ih]
      split_ifs <;> rfl

theorem deviation_not (p : Word) : deviation (~~~p) = -deviation p := by
  have both := popcount_not p
  rw [deviation_eq, deviation_eq]
  omega

theorem balance_not (p : Word) : balance (~~~p) = ~~~(balance p) := by
  have same_size : (deviation (~~~p)).natAbs = (deviation p).natAbs := by rw [deviation_not, Int.natAbs_neg]
  by_cases far : Config.condThreshold < (deviation p).natAbs
  · have off_target : deviation p ≠ 0 := Int.natAbs_ne_zero.1 (by omega)
    have opposite : decide (deviation (~~~p) < 0) = !decide (deviation p < 0) := by
      rw [deviation_not, ← decide_not]
      exact decide_eq_decide.2 (by omega)
    rw [balance_of_far (by rwa [same_size]), balance_of_far far, same_size, opposite, walk_not]
  · have near := Nat.le_of_not_lt far
    rw [balance_of_near (by rwa [same_size]), balance_of_near near]

/-! ### The statements -/

/-- Settles O11: 32 ones outside the threshold and 30 to 34 within it; such a word `BALANCE` accepts as it is. -/
theorem balanceEndsWithThirtyTwoOnes : Obligations.BalanceEndsWithThirtyTwoOnes := by
  refine ⟨fun p far => popcount_balance_of_far far, popcount_balance, fun p => ?_⟩
  obtain ⟨hlo, hhi⟩ := popcount_balance p
  exact balance_of_count hlo hhi

/-- Settles O12: `rotr_iterate_bit` at bit 0; 15 is odd, so its multiples below 64 are distinct modulo 64. -/
theorem walkVisitsDistinctPositions : Obligations.WalkVisitsDistinctPositions := by
  refine ⟨fun p j => ?_, fun j k hj1 hj hk1 hk h => by omega, fun j hj1 hj => by omega⟩
  rw [rotr_iterate_bit p 15 j 0 (by decide), Nat.zero_add]

/-- Settles O13: the rounds of `balance_eq_sweep`, of which each changes at most one bit. -/
theorem balanceChangesDeviationManyBits : Obligations.BalanceChangesDeviationManyBits := by
  intro p far
  obtain ⟨r, hr, hbal, hcount⟩ := balance_eq_sweep far
  refine ⟨r, ?_, hr, ?_⟩
  · exact hcount ▸ changed_le (decide (deviation p < 0)) p hr
  · rw [hbal]
    exact hcount

/-- Settles O14: `balance_not`. -/
theorem balanceCommutesWithComplement : Obligations.BalanceCommutesWithComplement := balance_not

/-- Settles O15: the definition, counter 0 of the mixer, and the walk of three words. -/
theorem conditionBalancesThePreSeed : Obligations.ConditionBalancesThePreSeed :=
  ⟨fun _ _ => rfl, fun k => ⟨mix64_zero k, condition_zero k⟩, by decide, by decide, by decide⟩

/-- Settles O56: the invariant gives that `ISEED` is a `BALANCE`. -/
theorem seededInternalSeedIsBalanced : Obligations.SeededInternalSeedIsBalanced := by
  intro s hs seeded
  obtain ⟨⟨-, hcond, -⟩, -⟩ := (inv_iff s).1 hs
  rw [hcond seeded, condition]
  exact popcount_balance _

end Sys2Proof.Machine
end

section
/-! SUPPORT. The corner cases of the mixer (41_counter_mixer.md section 5): below 2^32 a round only adds and the high
half is 0. -/

namespace Sys2Proof.Machine

/-! ### Small words -/

theorem mixRound_of_small {x : Word} (h : x.toNat < 2 ^ 32) (a : Word) : mixRound x a = a := by
  refine BitVec.eq_of_toNat_eq ?_
  rw [mixRound_toNat, Nat.div_eq_of_lt h, Nat.zero_mul, Nat.zero_add, Nat.mod_eq_of_lt a.isLt]

theorem high32_of_small {x : Word} (h : x.toNat < 2 ^ 32) : high32 x = 0#32 := by
  refine BitVec.eq_of_toNat_eq ?_
  rw [high32_toNat, Nat.div_eq_of_lt h]
  rfl

/-- A final XOR whose left operand has a small sum. -/
theorem zext64_high32_xor_of_small {a : Word} (h : a.toNat < 2 ^ 32) (b : Word) : zext64 (high32 a) ^^^ b = b := by
  rw [high32_of_small h]
  exact BitVec.zero_xor

/-! ### Seed 0 -/

theorem mix32_seed_zero (c : Word) : mix32 0#64 c = high32 (2#64 * c) := by
  rw [mix32_eq, BitVec.zero_mul, mixRound_of_small (by decide), BitVec.add_zero, BitVec.two_mul]

theorem mix64_seed_zero (c : Word) :
    mix64 0#64 c = zext64 (high32 (mixRound c c)) ^^^ mixRound c c := by
  have second : secondRound 0#64 c = mixRound c 0#64 := by
    rw [secondRound, BitVec.zero_mul, mixRound_of_small (x := 0#64) (by decide)]
  have sum : mixRound c 0#64 + c = mixRound c c := by
    rw [mixRound, mixRound, BitVec.add_zero]
  rw [mix64_eq, second, BitVec.zero_mul, BitVec.add_zero, sum]

/-! ### Small products -/

section SmallProduct
variable {s c : Word} (small : s.toNat * c.toNat < 2 ^ 32)
include small

theorem mul_toNat_of_small : (s * c).toNat = s.toNat * c.toNat := by
  rw [BitVec.toNat_mul, Nat.mod_eq_of_lt (by omega)]

theorem mix32_of_small : mix32 s c = high32 (2#64 * c + s * c) := by
  rw [mix32_eq, mixRound_of_small (by rwa [mul_toNat_of_small small]), BitVec.two_mul, add_right_comm]

theorem secondRound_of_small (counter : c.toNat < 2 ^ 32) : secondRound s c = s * c := by
  rw [secondRound, mixRound_of_small (x := s * c) (by rwa [mul_toNat_of_small small]), mixRound_of_small counter]

end SmallProduct

/-! ### The statement -/

/-- Settles O8: counter 0, seed 0 and the small products; the four fixed rows are computed. -/
theorem mixerCornerCases : Obligations.MixerCornerCases := by
  refine ⟨fun s => ⟨mix32_zero s, mix64_zero s⟩, fun c => ⟨mix32_seed_zero c, mix64_seed_zero c, fun hc => ?_,
    fun hc => ?_⟩, fun s c hs small => ⟨mix32_of_small small, fun hsum => ?_, fun hsum => ?_⟩, by decide⟩
  · rw [mix32_seed_zero]
    exact high32_of_small (by simp; omega)
  · rw [mix64_seed_zero, mixRound_of_small hc]
    exact zext64_high32_xor_of_small hc c
  · rw [mix32_of_small small]
    refine high32_of_small ?_
    rw [BitVec.toNat_add, BitVec.toNat_mul, mul_toNat_of_small small]
    simp
    omega
  · have product := mul_toNat_of_small small
    have counter : c.toNat < 2 ^ 32 := by nlinarith
    rw [mix64_eq, secondRound_of_small small counter]
    refine zext64_high32_xor_of_small ?_ _
    rw [add_add_toNat, product]
    omega

end Sys2Proof.Machine
end

section
/-! SUPPORT. The host layer (48_host_software_layer.md): the clone recipe command by command, the bounds of the range
samplers at any width, and the bytes that `NEXTBYTES` takes from the stream. -/

namespace Sys2Proof.Machine

/-! ### Issuing one command -/

/-- The state with nothing in flight and no response pending. -/
def State.settled (s : State) : State := { s with flight := none, rsp := none }

/-- Whatever a command answers, what it leaves once that is delivered is a settled state. -/
theorem ask_of_exec {i : Instr} {s t : State} {c : Code} {d : Word} (h : exec i s = .next (t.answer c d)) :
    ask i s = some (⟨c, d⟩, t.settled) := by
  rw [ask, h]
  rfl

theorem askData_of_exec {i : Instr} {s t : State} {d : Word} (h : exec i s = .next (t.answer .ok d)) :
    askData i s = some (d, t.settled) := by
  rw [askData, ask_of_exec h]

theorem readOf_of_exec {i : Instr} {s t : State} {d : Word} (h : exec i s = .next (t.answer .ok d)) :
    readOf i s = some d := by
  rw [readOf, askData_of_exec h]
  rfl

/-! ### Comparing two instances (section 6) -/

theorem readOf_alike {s t : State} (h : Alike s t) (i : Instr) : readOf i s = readOf i t := by
  obtain ⟨hrsp, -⟩ := outcomeOf_alike h i
  rw [readOf, readOf, askData_eq, askData_eq, hrsp]
  rcases (outcomeOf i t).rsp with _ | ⟨c, d⟩
  · rfl
  · cases c <;> rfl

/-- The host's comparison asks commands only, and alike instances answer them alike. -/
theorem equals_of_alike {s t : State} (h : Alike s t) (hs : s.seeded = true) : equals s t = true := by
  obtain ⟨hrsp, -⟩ := outcomeOf_alike h (.cpeek 0#64)
  simp [equals, ← readOf_alike h, ask_map_fst, hrsp, readOf_of_exec (exec_getctr 0#64 hs)]

/-! ### The clone recipe (section 6) -/

/-- The clone `b` once the public seed and the counter of `a` have been copied to it. -/
def State.copiedTo (a b : State) : State := ((b.reseeded a.pseed).setCtr a.ctr).settled

theorem State.copiedTo_params (a b : State) : (a.copiedTo b).params = b.params := by
  simp [State.copiedTo, State.settled, State.reseeded]

theorem State.copiedTo_seeded (a b : State) : (a.copiedTo b).seeded = true := b.reseeded_seeded a.pseed

/-- The recipe up to its `CPEEK`, which answers `OK` with a cached sample and some other code without one. -/
theorem clone_eq {a b : State} (ha : a.seeded = true) {c : Code} {d : Word}
    (hpeek : exec (.cpeek 0#64) a.settled = .next (a.settled.answer c d)) :
    clone a b = if c = .ok then (askData (.cput d) (a.copiedTo b)).map fun x => (a.settled, x.2)
      else some (a.settled, a.copiedTo b) := by
  have hseed := askData_of_exec (exec_getseed 0#64 ha)
  have hset : askData (.setseed a.pseed) b = some (0#64, b.reseeded a.pseed) :=
    askData_of_exec (exec_setseed a.pseed b)
  have hctr : askData (.getctr 0#64) a.settled = some (a.ctr, a.settled) :=
    askData_of_exec (exec_getctr (s := a.settled) 0#64 ha)
  have hcopy : askData (.setctr a.ctr) (b.reseeded a.pseed) = some (0#64, a.copiedTo b) :=
    askData_of_exec (exec_setctr a.ctr (b.reseeded_seeded a.pseed))
  have hpeek' : ask (.cpeek 0#64) a.settled = some (⟨c, d⟩, a.settled) := ask_of_exec hpeek
  simp only [clone, hseed, hset, hctr, hcopy, hpeek']
  cases c <;> rfl

/-- The copy of the seed and the counter is the original but for the cached sample. -/
theorem alike_copiedTo {a b : State} (ha : a.RegInv) (hs : a.seeded = true) (hp : b.params = a.params)
    (hv : a.cvalid = false) : Alike a.settled (a.copiedTo b) := by
  constructor <;> simp [State.copiedTo, State.settled, State.reseeded, hs, hp, hv, ha.conditioned hs]

theorem alike_deposited {a b : State} (ha : a.RegInv) (hs : a.seeded = true) (hp : b.params = a.params)
    (hv : a.cvalid = true) : Alike a.settled ((a.copiedTo b).putCache a.cache).settled := by
  constructor <;> simp [State.copiedTo, State.settled, State.reseeded, hs, hp, hv, ha.conditioned hs]

theorem clone_alike {a b : State} (ha : a.RegInv) (hs : a.seeded = true) (hp : b.params = a.params) :
    ∃ b', clone a b = some (a.settled, b') ∧ Alike a.settled b' := by
  cases hv : a.cvalid with
  | true =>
    have hc : a.params.hasCache = true := by
      by_contra missing
      simp [ha.empty_of_missing (by simpa using missing)] at hv
    have hput : exec (.cput a.cache) (a.copiedTo b) = .next (((a.copiedTo b).putCache a.cache).answer .ok 0#64) :=
      exec_cput (by rw [State.copiedTo_params, hp, hc]) (a.copiedTo_seeded b) a.cache
    refine ⟨_, ?_, alike_deposited ha hs hp hv⟩
    have hpeek : exec (.cpeek 0#64) a.settled = .next (a.settled.answer .ok a.cache) := exec_cpeek_held hc hs 0#64 hv
    rw [clone_eq hs hpeek, if_pos rfl, askData_of_exec hput]
    rfl
  | false =>
    refine ⟨_, ?_, alike_copiedTo ha hs hp hv⟩
    cases hc : a.params.hasCache with
    | true => rw [clone_eq hs (exec_cpeek_empty (s := a.settled) hc hs 0#64 hv), if_neg (by decide)]
    | false => rw [clone_eq hs (exec_of_missing (s := a.settled) hc rfl), if_neg (by decide)]

/-! ### Range samplers (section 5) -/

/-- Below a positive bound the unsigned and the signed order agree. -/
theorem toInt_bounds_of_lt {w : Nat} {v max : BitVec w} (hmax : 0 < max.toInt) (h : v.toNat < max.toNat) :
    0 ≤ v.toInt ∧ v.toInt < max.toInt := by
  rw [BitVec.toInt_eq_toNat_cond] at hmax ⊢
  rw [BitVec.toInt_eq_toNat_cond]
  have := max.isLt
  split_ifs at * <;> omega

theorem toNat_pos_of_toInt_pos {w : Nat} {max : BitVec w} (hmax : 0 < max.toInt) : 0 < max.toNat := by
  rw [BitVec.toInt_eq_toNat_cond] at hmax
  have := max.isLt
  split_ifs at hmax <;> omega

/-- A mask of the bound less one (rule R168, powers of two). -/
theorem and_sub_one_lt {w : Nat} (d : BitVec w) {max : BitVec w} (hmax : 0 < max.toNat) :
    (d &&& (max - 1#w)).toNat < max.toNat := by
  have one_le : 1 % 2 ^ w = 1 := by
    have := max.isLt
    exact Nat.mod_eq_of_lt (by omega)
  have less_one : (max - 1#w).toNat = max.toNat - 1 := by
    rw [BitVec.toNat_sub_of_le (by rw [BitVec.le_def, BitVec.toNat_ofNat, one_le]; omega), BitVec.toNat_ofNat, one_le]
  have masked : (d &&& (max - 1#w)).toNat ≤ (max - 1#w).toNat := by
    rw [BitVec.toNat_and]
    exact Nat.and_le_right
  omega

section Samplers
variable {w : Nat} {draw : State → Option (BitVec w × State)} {max : BitVec w} {tries : Nat} {s : State}

/-- An accepted draw is a remainder by the bound, and the loop never finds its argument invalid. -/
theorem rejectionLoop_cases (hmax : 0 < max.toNat) :
    rejectionLoop draw max tries s ≠ .invalidArgument
      ∧ ∀ v t, rejectionLoop draw max tries s = .value v t → v.toNat < max.toNat := by
  induction tries generalizing s with
  | zero => simp [rejectionLoop]
  | succ tries ih =>
    rw [rejectionLoop]
    rcases draw s with _ | ⟨d, t⟩
    · simp
    · dsimp only
      split
      · refine ⟨by simp, fun v u h => ?_⟩
        obtain ⟨rfl, -⟩ := Ranged.value.inj h
        exact Nat.mod_lt _ hmax
      · exact ih

theorem nextRange_of_nonpos (h : max.toInt ≤ 0) : nextRange draw max tries s = .invalidArgument := if_pos h

theorem nextRange_cases (hpos : 0 < max.toInt) :
    nextRange draw max tries s ≠ .invalidArgument
      ∧ ∀ v t, nextRange draw max tries s = .value v t → v.toNat < max.toNat := by
  have hmax := toNat_pos_of_toInt_pos hpos
  rw [nextRange, if_neg (by omega)]
  split
  · rcases draw s with _ | ⟨d, t⟩
    · simp
    · refine ⟨by simp, fun v u h => ?_⟩
      obtain ⟨rfl, -⟩ := Ranged.value.inj h
      exact and_sub_one_lt d hmax
  · exact rejectionLoop_cases hmax

theorem nextRange_invalid_iff : nextRange draw max tries s = .invalidArgument ↔ max.toInt ≤ 0 := by
  refine ⟨fun h => ?_, nextRange_of_nonpos⟩
  by_contra hpos
  exact (nextRange_cases (by omega)).1 h

theorem nextRange_bounds {v : BitVec w} {t : State} (h : nextRange draw max tries s = .value v t) :
    0 ≤ v.toInt ∧ v.toInt < max.toInt := by
  have hpos : 0 < max.toInt := by
    by_contra hneg
    rw [nextRange_of_nonpos (by omega)] at h
    cases h
  exact toInt_bounds_of_lt hpos ((nextRange_cases hpos).2 v t h)

theorem nextRangeFrom_of_empty {min : BitVec w} (h : max.toInt ≤ min.toInt) :
    nextRangeFrom draw min max tries s = .invalidArgument := if_pos h

/-- Where the wrapped width of a range is positive it is the width. -/
theorem toInt_sub_of_pos {min : BitVec w} (hlt : min.toInt < max.toInt) (hpos : 0 < (max - min).toInt) :
    (max - min).toInt = max.toInt - min.toInt := by
  have top := max.two_mul_toInt_lt
  have bottom := min.le_two_mul_toInt
  have reduced : (max.toInt - min.toInt) % 2 ^ w = max.toInt - min.toInt := Int.emod_eq_of_lt (by omega) (by omega)
  rw [BitVec.toInt_sub, Int.bmod_def] at hpos ⊢
  push_cast at hpos ⊢
  rw [reduced] at hpos ⊢
  split_ifs at hpos ⊢
  · rfl
  · omega

theorem nextRangeFrom_bounds {min v : BitVec w} {t : State} (h : nextRangeFrom draw min max tries s = .value v t) :
    min.toInt ≤ v.toInt ∧ v.toInt < max.toInt := by
  by_cases hlt : min.toInt < max.toInt
  · rw [nextRangeFrom, if_neg (by omega)] at h
    split at h
    next u t' hu =>
      obtain ⟨rfl, -⟩ := Ranged.value.inj h
      obtain ⟨hlo, hhi⟩ := nextRange_bounds hu
      rw [toInt_sub_of_pos hlt (by omega)] at hhi
      have top := max.two_mul_toInt_lt
      have bottom := min.le_two_mul_toInt
      have no_wrap : (min + u).toInt = min.toInt + u.toInt := by
        rw [BitVec.toInt_add]
        refine Int.bmod_eq_of_le_mul_two ?_ ?_ <;> push_cast <;> omega
      omega
    all_goals cases h
  · rw [nextRangeFrom_of_empty (by omega)] at h
    cases h

end Samplers

/-! ### `NEXTBYTES` (section 4) -/

/-- Byte `k` of the stream from the counter on, each word low byte first. -/
def streamByte (s : State) (k : Nat) : BitVec 8 :=
  (mix64 s.iseed (s.ctr + BitVec.ofNat 64 (k / 8))).extractLsb' (8 * (k % 8)) 8

theorem pushBytes_eq (w : Word) (k : Nat) (filled : List (BitVec 8)) :
    pushBytes w k filled = ((List.range k).map fun j => w.extractLsb' (8 * j) 8).reverse ++ filled := by
  rw [pushBytes]
  induction k with
  | zero => rfl
  | succ k ih => rw [List.range_succ, List.foldl_append, ih]; simp

theorem drawLong_of_seeded {s : State} (hs : s.seeded = true) :
    drawLong s = some (mix64 s.iseed s.ctr, s.advanceCtr.settled) := askData_of_exec (exec_nextlong 0#64 hs)

/-- After one draw the stream goes on 8 bytes further. -/
theorem streamByte_advance (s : State) (k : Nat) : streamByte s.advanceCtr.settled k = streamByte s (8 + k) := by
  have hword : (8 + k) / 8 = 1 + k / 8 := by omega
  have hbyte : (8 + k) % 8 = k % 8 := by omega
  rw [streamByte, streamByte, hword, hbyte, BitVec.ofNat_add, ← BitVec.add_assoc]
  rfl

/-- The first bytes of the stream are the low bytes of the word at the counter. -/
theorem streamByte_of_lt (s : State) {k : Nat} (h : k < 8) :
    streamByte s k = (mix64 s.iseed s.ctr).extractLsb' (8 * k) 8 := by
  rw [streamByte, Nat.div_eq_of_lt h, Nat.mod_eq_of_lt h, BitVec.add_zero]

theorem map_range_streamByte (s : State) (i : Nat) :
    (List.range i).map (streamByte s) =
      ((List.range (min i 8)).map fun j => (mix64 s.iseed s.ctr).extractLsb' (8 * j) 8)
        ++ (List.range (i - min i 8)).map (streamByte s.advanceCtr.settled) := by
  have hsplit : List.range i = List.range (min i 8 + (i - min i 8)) := by
    congr 1
    omega
  rw [hsplit, List.range_add, List.map_append, List.map_map]
  congr 1
  · refine List.map_congr_left fun j hj => streamByte_of_lt s ?_
    have := List.mem_range.1 hj
    omega
  · refine List.map_congr_left fun j hj => ?_
    have hj := List.mem_range.1 hj
    have full : min i 8 = 8 := by omega
    rw [Function.comp_apply, full, streamByte_advance]

/-- The loop puts the stream's first `i` bytes in front of the filled part, the last of them first. -/
theorem fillBytes_eq {chunks i : Nat} (hchunks : chunks = (i + 7) / 8) (filled : List (BitVec 8)) {s : State}
    (hs : s.seeded = true) :
    ∃ t, fillBytes chunks i filled s = some (((List.range i).map (streamByte s)).reverse ++ filled, t)
      ∧ t.ctr = s.ctr + BitVec.ofNat 64 chunks ∧ t.iseed = s.iseed ∧ t.seeded = true := by
  induction chunks generalizing i filled s with
  | zero =>
    obtain rfl : i = 0 := by omega
    exact ⟨s, rfl, (BitVec.add_zero _).symm, rfl, hs⟩
  | succ chunks ih =>
    obtain ⟨t, hfill, hctr, hiseed, hseeded⟩ := ih (i := i - min i 8) (by omega)
      (pushBytes (mix64 s.iseed s.ctr) (min i 8) filled) (s := s.advanceCtr.settled) hs
    refine ⟨t, ?_, ?_, hiseed, hseeded⟩
    · simp only [fillBytes, drawLong_of_seeded hs]
      rw [hfill, pushBytes_eq, map_range_streamByte s i, List.reverse_append, List.append_assoc]
    · rw [hctr, Nat.add_comm chunks, BitVec.ofNat_add, ← BitVec.add_assoc]
      rfl

/-! ### The statements -/

/-- Settles O58: the recipe leaves the original settled and the other alike to it. -/
theorem cloneIsInTheSameState : Obligations.CloneIsInTheSameState := by
  intro a b hinv hs hp
  obtain ⟨hregs, -⟩ := (inv_iff a).1 hinv
  obtain ⟨b', hclone, halike⟩ := clone_alike hregs hs hp
  exact ⟨a.settled, b', hclone, ⟨rfl, rfl, rfl, rfl, fun _ => rfl, hs, hs⟩, halike.same hs, equals_of_alike halike hs⟩

/-- Settles O59: the samplers' bounds, at widths 32 and 64. -/
theorem rangeSamplesLieInRange : Obligations.RangeSamplesLieInRange :=
  ⟨fun _ _ _ _ _ => nextRange_bounds, fun _ _ _ _ _ _ => nextRangeFrom_bounds, fun _ _ _ _ _ => nextRange_bounds,
    fun _ _ _ _ _ _ => nextRangeFrom_bounds, fun _ _ _ => nextRange_invalid_iff,
    fun _ _ _ _ => nextRangeFrom_of_empty, fun _ _ _ => nextRange_invalid_iff,
    fun _ _ _ _ => nextRangeFrom_of_empty⟩

/-- Settles O60: the buffer is the stream's first `n` bytes, reversed. -/
theorem nextBytesFillsBackToFront : Obligations.NextBytesFillsBackToFront := by
  intro n s hs
  obtain ⟨t, hfill, hctr, hiseed, hseeded⟩ := fillBytes_eq (i := n) rfl [] hs
  refine ⟨_, t, hfill, by simp, hctr, hiseed, hseeded, fun k hk => ?_⟩
  have hplace : n - 1 - (n - 1 - k) = k := by omega
  rw [List.append_nil, List.getElem?_reverse (by simp; omega), List.length_map, List.length_range, hplace,
    List.getElem?_map, List.getElem?_range hk]
  rfl

end Sys2Proof.Machine
end

section
/-! SUPPORT. The assembler of 30_encoding.md section 7 (rule R70): a text splits at its separators, a line with a
mnemonic and an operand is looked up and read, and digits read back as the number they write. -/

namespace Sys2Proof.Machine

/-! ### Splitting text -/

theorem splitText_of_no_sep {sep : Char → Bool} {text : List Char} (h : ∀ c ∈ text, sep c = false) :
    splitText sep text = [text] := by
  induction text with
  | nil => rfl
  | cons c cs ih =>
    obtain ⟨hc, hcs⟩ := List.forall_mem_cons.1 h
    simp [splitText, hc, ih hcs]

theorem splitText_append_sep {sep : Char → Bool} {text : List Char} (h : ∀ c ∈ text, sep c = false) {c : Char}
    (hc : sep c = true) (rest : List Char) : splitText sep (text ++ c :: rest) = text :: splitText sep rest := by
  induction text with
  | nil => simp [splitText, hc]
  | cons d ds ih =>
    obtain ⟨hd, hds⟩ := List.forall_mem_cons.1 h
    simp [splitText, hd, ih hds]

/-- A text without separators, comment mark or line end. -/
def Plain (text : List Char) : Prop := ∀ c ∈ text, c ≠ ' ' ∧ c ≠ '\t' ∧ c ≠ '#' ∧ c ≠ '\n'

theorem Plain.no_blank {text : List Char} (h : Plain text) : ∀ c ∈ text, (c == ' ' || c == '\t') = false := by
  intro c hc
  obtain ⟨hspace, htab, -⟩ := h c hc
  simp [hspace, htab]

theorem Plain.no_comment {text : List Char} (h : Plain text) : ∀ c ∈ text, (c != '#') = true := by
  intro c hc
  obtain ⟨-, -, hmark, -⟩ := h c hc
  simp [hmark]

theorem Plain.no_newline {text : List Char} (h : Plain text) : ∀ c ∈ text, (c == '\n') = false := by
  intro c hc
  obtain ⟨-, -, -, hend⟩ := h c hc
  simp [hend]

theorem lineWords_two {m o : List Char} (hm : Plain m) (m_ne : m ≠ []) (ho : Plain o) (o_ne : o ≠ []) :
    lineWords (m ++ ' ' :: o) = [m, o] := by
  have no_comment : ∀ c ∈ m ++ ' ' :: o, (c != '#') = true :=
    List.forall_mem_append.2 ⟨hm.no_comment, List.forall_mem_cons.2 ⟨rfl, ho.no_comment⟩⟩
  rw [lineWords, List.takeWhile_eq_self_iff.2 no_comment, splitText_append_sep hm.no_blank rfl,
    splitText_of_no_sep ho.no_blank]
  simp [m_ne, o_ne]

/-! ### Lines of one command -/

theorem lookup_of_mem {α β : Type} [BEq α] [LawfulBEq α] {row : α × β} {l : List (α × β)}
    (distinct : (l.map (·.1)).Nodup) (h : row ∈ l) : l.lookup row.1 = some row.2 := by
  induction l with
  | nil => cases h
  | cons r l ih =>
    obtain ⟨hr, hl⟩ := List.nodup_cons.1 distinct
    rcases List.mem_cons.1 h with rfl | h
    · rw [List.lookup_cons, beq_self_eq_true]
    · have other : row.1 ≠ r.1 := fun e => hr (List.mem_map.2 ⟨row, h, e⟩)
      rw [List.lookup_cons, beq_false_of_ne other]
      exact ih hl h

theorem scriptTable_lookup {row : List Char × (Word → Instr)} (h : row ∈ scriptTable) :
    scriptTable.lookup row.1 = some row.2 := lookup_of_mem (by decide) h

theorem scriptTable_plain : ∀ row ∈ scriptTable, Plain row.1 ∧ row.1 ≠ [] := by
  simp [scriptTable, Plain]

section Row
variable {row : List Char × (Word → Instr)} (hrow : row ∈ scriptTable) {o : List Char} (ho : Plain o) (o_ne : o ≠ [])
include hrow ho o_ne

theorem assembleLine_operand (takes : (row.2 0#64).takesOperand = true) :
    assembleLine (row.1 ++ ' ' :: o) = (readOperand o).elim (.error .badOperand) fun v => .ok (some (row.2 v)) := by
  obtain ⟨hm, m_ne⟩ := scriptTable_plain row hrow
  simp only [assembleLine, lineWords_two hm m_ne ho o_ne, scriptTable_lookup hrow, takes, if_true]
  cases readOperand o <;> rfl

theorem assembleLine_unexpected (takes : (row.2 0#64).takesOperand = false) :
    assembleLine (row.1 ++ ' ' :: o) = .error .unexpectedOperand := by
  obtain ⟨hm, m_ne⟩ := scriptTable_plain row hrow
  simp [assembleLine, lineWords_two hm m_ne ho o_ne, scriptTable_lookup hrow, takes]

end Row

theorem row_no_newline {row : List Char × (Word → Instr)} (hrow : row ∈ scriptTable) :
    ∀ c ∈ row.1, (c == '\n') = false := (scriptTable_plain row hrow).1.no_newline

theorem line_no_newline {row : List Char × (Word → Instr)} (hrow : row ∈ scriptTable) {o : List Char} (ho : Plain o) :
    ∀ c ∈ row.1 ++ ' ' :: o, (c == '\n') = false :=
  List.forall_mem_append.2 ⟨row_no_newline hrow, List.forall_mem_cons.2 ⟨rfl, ho.no_newline⟩⟩

theorem assembleLine_missing : ∀ row ∈ scriptTable, (row.2 0#64).takesOperand = true →
    assembleLine row.1 = .error .missingOperand := by decide

theorem assembleLine_alone : ∀ row ∈ scriptTable, (row.2 0#64).takesOperand = false →
    assembleLine row.1 = .ok (some (row.2 0#64)) := by decide

/-- A script of one line, with the final newline and without it. -/
theorem assemble_line {line : List Char} {i : Instr} (one_line : ∀ c ∈ line, (c == '\n') = false)
    (h : assembleLine line = .ok (some i)) :
    assemble line = .ok [encode i] ∧ assemble (line ++ ['\n']) = .ok [encode i] := by
  have empty_line : assembleLine [] = .ok none := rfl
  rw [assemble, assemble, splitText_of_no_sep one_line, splitText_append_sep one_line rfl]
  simp [assembleLines, splitText, h, empty_line]

/-! ### Numbers -/

theorem readNumber_append (base acc : Nat) (xs ys : List Char) :
    readNumber base acc (xs ++ ys) = (readNumber base acc xs).bind fun n => readNumber base n ys := by
  induction xs generalizing acc with
  | nil => rfl
  | cons c cs ih =>
    rw [List.cons_append, readNumber, readNumber]
    cases digitValue base c with
    | none => rfl
    | some d => exact ih _

theorem digitValue_hex : ∀ d < 16, digitValue 16 (upperDigits.getD d '0') = some d := by decide

theorem digitValue_decimal : ∀ d < 10, digitValue 10 (upperDigits.getD d '0') = some d := by decide

theorem readNumber_showHex {n v : Nat} (h : v < 16 ^ n) : readNumber 16 0 (showHex n v) = some v := by
  induction n generalizing v with
  | zero =>
    obtain rfl : v = 0 := by simpa using h
    rfl
  | succ n ih =>
    have digit := digitValue_hex (v % 16) (Nat.mod_lt _ (by decide))
    have high : v / 16 < 16 ^ n := Nat.div_lt_of_lt_mul (by rwa [Nat.pow_succ'] at h)
    rw [showHex, readNumber_append, ih high, Option.bind_some, readNumber, digit]
    exact congrArg some (Nat.div_add_mod' v 16)

theorem readNumber_decimal (acc : Nat) (digits : List (Fin 10)) :
    readNumber 10 acc (digits.map fun d => upperDigits.getD d.val '0') =
      some (digits.foldl (fun m d => m * 10 + d.val) acc) := by
  induction digits generalizing acc with
  | nil => rfl
  | cons d ds ih =>
    rw [List.map_cons, readNumber, digitValue_decimal d d.isLt]
    exact ih _

/-! ### Digits as text -/

theorem plain_of_digits {text : List Char} (h : ∀ c ∈ text, c ∈ upperDigits) : Plain text := by
  have digits : ∀ c ∈ upperDigits, c ≠ ' ' ∧ c ≠ '\t' ∧ c ≠ '#' ∧ c ≠ '\n' := by simp [upperDigits]
  exact fun c hc => digits c (h c hc)

theorem Plain.cons {c : Char} {text : List Char} (hc : c ≠ ' ' ∧ c ≠ '\t' ∧ c ≠ '#' ∧ c ≠ '\n') (h : Plain text) :
    Plain (c :: text) := List.forall_mem_cons.2 ⟨hc, h⟩

theorem upperDigits_getD_mem {d : Nat} (h : d < 16) : upperDigits.getD d '0' ∈ upperDigits := by
  rw [List.getD_eq_getElem _ _ (by exact h)]
  exact List.getElem_mem _

theorem showHex_length (n v : Nat) : (showHex n v).length = n := by
  induction n generalizing v with
  | zero => rfl
  | succ n ih => rw [showHex, List.length_append, ih]; rfl

theorem showHex_digits (n v : Nat) : ∀ c ∈ showHex n v, c ∈ upperDigits := by
  induction n generalizing v with
  | zero => exact List.forall_mem_nil _
  | succ n ih =>
    have digit := upperDigits_getD_mem (Nat.mod_lt v (show 0 < 16 by decide))
    exact List.forall_mem_append.2 ⟨ih _, by simpa using digit⟩

theorem decimal_digits (digits : List (Fin 10)) :
    ∀ c ∈ digits.map (fun d => upperDigits.getD d.val '0'), c ∈ upperDigits :=
  List.forall_mem_map.2 fun d _ => upperDigits_getD_mem (by omega)

/-! ### Operands -/

theorem plain_hex (n v : Nat) : Plain ('0' :: 'x' :: showHex n v) :=
  (plain_of_digits (showHex_digits n v)).cons (by decide) |>.cons (by decide)

/-- The line of a mnemonic and a hexadecimal operand, as the mnemonic, one space and the operand. -/
theorem hexLine_eq (m digits : List Char) : m ++ [' ', '0', 'x'] ++ digits = m ++ ' ' :: '0' :: 'x' :: digits :=
  List.append_assoc ..

theorem readOperand_hex {n : Nat} (h1 : 1 ≤ n) (h16 : n ≤ 16) {v : Word} (hv : v.toNat < 16 ^ n) :
    readOperand ('0' :: 'x' :: showHex n v.toNat) = some v := by
  rw [readOperand, showHex_length, if_pos ⟨h1, h16⟩, readNumber_showHex hv, Option.map_some, BitVec.ofNat_toNat,
    BitVec.setWidth_eq]

/-- Digits begin neither a hexadecimal nor a negative operand. -/
theorem readOperand_of_digits {text : List Char} (h : ∀ c ∈ text, c ∈ upperDigits) {n : Nat}
    (hn : readDecimal text = some n) : readOperand text = if n < 2 ^ 64 then some (BitVec.ofNat 64 n) else none := by
  have no_x : 'x' ∉ upperDigits := by decide
  have no_minus : '-' ∉ upperDigits := by decide
  unfold readOperand
  split
  · exact absurd (h 'x' (by simp)) no_x
  · exact absurd (h '-' (by simp)) no_minus
  · rw [hn]

theorem readOperand_minus {text : List Char} {n : Nat} (hn : readDecimal text = some n) :
    readOperand ('-' :: text) = if n ≤ 2 ^ 63 then some (BitVec.ofInt 64 (-(n : Int))) else none := by
  simp only [readOperand, hn]

theorem readDecimal_digits {digits : List (Fin 10)} (h : digits ≠ []) :
    readDecimal (digits.map fun d => upperDigits.getD d.val '0') =
      some (digits.foldl (fun m d => m * 10 + d.val) 0) := by
  rw [← readNumber_decimal]
  cases digits with
  | nil => exact absurd rfl h
  | cons d ds => rfl

/-! ### The table (rule R63) -/

/-- The operand of a row's command is the one it is applied to. -/
theorem encode_row {row : List Char × (Word → Instr)} (hrow : row ∈ scriptTable) (v : Word) :
    encode (row.2 v) = (row.2 v).op ++ v := by
  have same_arg : ∀ row ∈ scriptTable, ∀ v, (row.2 v).arg = v := by simp [scriptTable, Instr.arg]
  rw [encode, same_arg row hrow]

theorem scriptTable_covers (i : Instr) : ∃ row ∈ scriptTable, row.2 i.arg = i := by
  cases i <;> simp [scriptTable, Instr.arg]

/-! ### The statement -/

/-- Settles O5: the table row by row; `assembleLine_operand` for the operands that `readOperand_hex`,
`readOperand_of_digits` and `readOperand_minus` read. -/
theorem scriptLinesAssemble : Obligations.ScriptLinesAssemble := by
  refine ⟨rfl, scriptTable_covers, fun row hrow n v h1 h16 hv takes => ?_, fun row hrow v takes => ?_,
    fun digits hne => ?_, fun comment => rfl, rfl, rfl, by decide⟩
  · have line : assembleLine (row.1 ++ ' ' :: '0' :: 'x' :: showHex n v.toNat) = .ok (some (row.2 v)) := by
      rw [assembleLine_operand hrow (plain_hex n _) (by simp) takes, readOperand_hex h1 h16 hv]
      rfl
    obtain ⟨open_end, closed_end⟩ := assemble_line (line_no_newline hrow (plain_hex n _)) line
    rw [hexLine_eq, ← encode_row hrow]
    exact ⟨line, open_end, closed_end, assembleLine_missing row hrow takes⟩
  · obtain ⟨open_end, closed_end⟩ := assemble_line (row_no_newline hrow) (assembleLine_alone row hrow takes)
    rw [hexLine_eq, ← encode_row hrow]
    exact ⟨open_end, closed_end, assembleLine_unexpected hrow (plain_hex 16 _) (by simp) takes⟩
  · intro n text
    have hn : readDecimal text = some n := readDecimal_digits hne
    have htext : ∀ c ∈ text, c ∈ upperDigits := decimal_digits digits
    have text_ne : text ≠ [] := by simpa [text] using hne
    have plain := plain_of_digits htext
    have positive := readOperand_of_digits htext hn
    have negative := readOperand_minus hn
    refine ⟨positive, negative, fun row hrow takes => ⟨?_, ?_⟩⟩
    · rw [assembleLine_operand hrow plain text_ne takes, positive]
      split_ifs <;> rfl
    · rw [assembleLine_operand hrow (plain.cons (by decide)) (by simp) takes, negative]
      split_ifs <;> rfl

end Sys2Proof.Machine
end
